-- ==== Sys2Proof/Word.lean ====
section
/-! DEFINITION. The two widths of the hardware (spec/00_scope.md section 5.1): a byte is 8 bits, every other
numeric field of a frame and every holding register is 16 bits. All values are unsigned. -/

namespace Sys2Proof

/-- One byte of a frame. -/
abbrev Byte := BitVec 8

/-- A 16-bit unsigned value: a request field, a holding register, a CRC. -/
abbrev Word := BitVec 16

end Sys2Proof
end

