-- ==== Sys2Proof/Config.lean ====
section
/-! DEFINITION. What is fixed before reset is released (spec/00_scope.md rules R3, R4; spec/10_state.md rule R13) and the
free values of a digital I/O backend that is not ideal (spec/10_state.md rule R12). -/

namespace Sys2Proof

/-- The digital I/O backend (spec/10_state.md rule R12). -/
inductive Backend where
  /-- `CoilWrite(i, b)` performs `COIL[i] <- b`; `CoilRead(i)` returns `COIL[i]`. -/
  | ideal
  /-- `CoilRead` may answer any Boolean, and a coil holds after a write "whatever the backend made of the write"
  (spec/44_write_handlers.md rule R121). -/
  | oracle
  deriving DecidableEq, Repr

/-- The configured constants, R3's parameter table. No request changes one. -/
structure Config where
  /-- `SLAVE_ID` -/
  slaveId : Byte
  /-- `NUMCOILS` -/
  numCoils : Nat
  /-- `NUM_REGISTERS` -/
  numRegisters : Nat
  /-- `REG_RESET[i]`, spec/10_state.md rule R24 -/
  regReset : List Word
  /-- `COIL_RESET[i]`, spec/10_state.md rule R25 -/
  coilReset : List Bool
  /-- `REQ_CRC_MSB_FIRST`, spec/90_conflicts.md C2: true in every rule of the spec. -/
  reqCrcMsbFirst : Bool
  /-- `WR_REG_STORE`, spec/44_write_handlers.md rule R122: false for the reference device. -/
  wrRegStore : Bool
  /-- `Backend` -/
  backend : Backend
  deriving DecidableEq, Repr

namespace Config

/-- `BUF_CAP`: bytes of the request buffer and of the response buffer. -/
abbrev bufCap : Nat := 256

/-- `MIN_FRAME`: least accepted request length. -/
abbrev minFrame : Nat := 8

/-- `COIL_COUNT_MAX`: greatest count of a Read Coils request. -/
abbrev coilCountMax : Nat := 2000

/-- `CRC_INIT`; 16 bits, spec/90_conflicts.md C1. -/
abbrev crcInit : Word := 0xFFFF#16

/-- `CRC_POLY` -/
abbrev crcPoly : Word := 0xA001#16

/-- `EXC_CODE`, "illegal function". -/
abbrev excCode : Byte := 0x01#8

/-- The value that turns a coil on (spec/30_encoding.md rule R54). -/
abbrev coilOnValue : Word := 0xFF00#16

/-- The value that turns a coil off (spec/30_encoding.md rule R54; DEDUCED, log 23). -/
abbrev coilOffValue : Word := 0x0000#16

/-- The reference configuration of spec/00_scope.md rule R3: slave id 0x01, 6 coils, 10 registers with
`HR[i] = 100*(i+1)` (spec/10_state.md rule R24). `coilReset` all off is a DESIGN CHOICE (log 3, unsafe). -/
def reference : Config where
  slaveId := 0x01#8
  numCoils := 6
  numRegisters := 10
  regReset := [100#16, 200#16, 300#16, 400#16, 500#16, 600#16, 700#16, 800#16, 900#16, 1000#16]
  coilReset := [false, false, false, false, false, false]
  reqCrcMsbFirst := true
  wrRegStore := false
  backend := .ideal

/-- FREE VALUE: the answer of an oracle backend to its `n`-th draw (spec/10_state.md rule R12: "may answer any
Boolean"; log 9). It has no body: no proof can see a value of it. -/
opaque freeCoilRead : Nat → Bool

/-- FREE VALUE: what a coil holds after a write through an oracle backend, at the `n`-th draw
(spec/44_write_handlers.md rule R121; log 26). -/
opaque freeCoilAfterWrite : Nat → Bool

end Config

end Sys2Proof
end

