-- ==== Sys2Proof/Machine/Operands.lean ====
section
/-! DEFINITION. The operand forms: assembling and splitting 16-bit fields (spec/00_scope.md section 5, spec/20_memory.md
rules R35 to R37, spec/30_encoding.md rules R53, R54) and packing coils into bytes (spec/43_read_handlers.md rule R111). -/

namespace Sys2Proof.Machine

/-- `be16(h, l) = (zext_16(h) << 8) | zext_16(l)`. -/
def be16 (h l : Byte) : Word := (h.setWidth 16 <<< 8) ||| l.setWidth 16

/-- `hi8(v) = v[15:8]`. -/
def hi8 (v : Word) : Byte := v.extractLsb' 8 8

/-- `lo8(v) = v[7:0]`. -/
def lo8 (v : Word) : Byte := v.extractLsb' 0 8

/-- Byte `i` of a buffer. Every use is at `i < L`, shown by the validator's length check (spec/41_frame_validator.md
rule R91); beyond the buffer it is 0, which no rule reads (log 25). -/
def byteAt (bytes : List Byte) (i : Nat) : Byte := bytes.getD i 0#8

/-- `MemRead(addr, 2)`: two bytes, big-endian (spec/00_scope.md section 5.2). -/
def memRead16 (bytes : List Byte) (addr : Nat) : Word :=
  be16 (byteAt bytes addr) (byteAt bytes (addr + 1))

/-- The first argument field, `f1` (spec/30_encoding.md rule R53). -/
def fieldF1 (req : List Byte) : Word := memRead16 req 2

/-- The second argument field, `f2` (spec/30_encoding.md rule R53). -/
def fieldF2 (req : List Byte) : Word := memRead16 req 4

/-- `MemWrite(a, 2, v)`: the two bytes written, high byte first (spec/20_memory.md rule R35). -/
def be16Bytes (v : Word) : List Byte := [hi8 v, lo8 v]

/-- The coil value decode (spec/30_encoding.md rule R54): on, off, or invalid. All 16 bits are compared. -/
def decodeCoilValue (value : Word) : Option Bool :=
  if value = Config.coilOnValue then some true
  else if value = Config.coilOffValue then some false
  else none

/-- `ceil(count/8)`, the byte count of a Read Coils response (spec/30_encoding.md rule R57). -/
def coilByteCount (count : Nat) : Nat := (count + 7) / 8

/-- Bits `b` and up of one packed byte, for the coils `8j + b` and up of the request: the byte starts as 0x00 and each coil
that is on sets its bit (spec/43_read_handlers.md rules R110, R111). `fuel` is how many bits are left. -/
def packBitsOfByte (coils : List Bool) (j : Nat) : Nat → Nat → Byte
  | 0, _ => 0x00#8
  | fuel + 1, b =>
    (if coils.getD (8 * j + b) false then 1#8 <<< b else 0x00#8) ||| packBitsOfByte coils j fuel (b + 1)

/-- `packed[j]`: bit `b` is coil `8j + b` of the request, and 0 beyond the last coil (spec/30_encoding.md rule R57;
the padding is spec/92_eei_decisions.md D7, log 8). -/
def packedByte (coils : List Bool) (j : Nat) : Byte := packBitsOfByte coils j 8 0

/-- The packed coils of a Read Coils response, ascending bytes. -/
def packCoils (coils : List Bool) : List Byte :=
  (List.range (coilByteCount coils.length)).map (packedByte coils)

end Sys2Proof.Machine
end

