-- ==== Sys2Proof/Machine/Crc.lean ====
section
/-! DEFINITION. The CRC-16/MODBUS codec (spec/40_crc.md). The 16-bit register of spec/10_state.md rule R16 is the
accumulator of `crc16`: it is loaded with 0xFFFF at the start of every computation and no value of it survives. -/

namespace Sys2Proof.Machine

/-- One of the eight shifts of spec/40_crc.md rule R80: logical right shift, then the constant exclusive-ored in when the
bit that left was 1. -/
def crcShift (crc : Word) : Word :=
  if crc.getLsbD 0 then (crc >>> 1) ^^^ Config.crcPoly else crc >>> 1

/-- `n` shifts. -/
def crcShifts : Nat → Word → Word
  | 0, crc => crc
  | n + 1, crc => crcShifts n (crcShift crc)

/-- One pass of the outer loop of rule R80: exclusive-or the zero-extended byte in, then eight shifts. -/
def crcByte (crc : Word) (b : Byte) : Word := crcShifts 8 (crc ^^^ b.setWidth 16)

/-- `CRC16(data)` = `calculateCRC` (rule R80): bytes in ascending index, no final exclusive-or, no byte swap. -/
def crc16 (data : List Byte) : Word := data.foldl crcByte Config.crcInit

/-- `verifyCRC(data, len, crcMSB, crcLSB)` (rule R81). -/
def verifyCrc (data : List Byte) (crcMSB crcLSB : Byte) : Bool :=
  decide (crc16 data = be16 crcMSB crcLSB)

/-- The bit-serial form of rule R85: one message bit `d`. -/
def crcSerialBit (crc : Word) (d : Bool) : Word :=
  if xor (crc.getLsbD 0) d then (crc >>> 1) ^^^ Config.crcPoly else crc >>> 1

/-- The bits of a byte, least significant first. -/
def bitsLsbFirst (b : Byte) : List Bool := (List.range 8).map b.getLsbD

/-- Rule R85: the message bits one at a time, each byte least significant bit first. -/
def crcSerial (data : List Byte) : Word :=
  (data.flatMap bitsLsbFirst).foldl crcSerialBit Config.crcInit

/-- A payload with its CRC appended, low byte then high byte (spec/45_response_framer.md rule R130, spec/20_memory.md
rule R36). -/
def framed (payload : List Byte) : List Byte :=
  payload ++ [lo8 (crc16 payload), hi8 (crc16 payload)]

end Sys2Proof.Machine
end

