-- ==== Sys2Proof/Syntax.lean ====
section
/-! DEFINITION. The requests of the block, one constructor per mnemonic of spec/opcode_table.json (the eight ILLFC rows
are one behaviour over 252 function codes, spec/30_encoding.md rule R61; log 17), the causes of a silent drop, and the
events the outside delivers. -/

namespace Sys2Proof

/-- A request frame's meaning after decoding. Operands are the 16-bit fields `f1`, `f2` of spec/30_encoding.md rule R53. -/
inductive Instr where
  /-- `RDCOIL start, count` (0x01), spec/43_read_handlers.md rule R110; `start` is 1-based. -/
  | rdcoil (start count : Word)
  /-- `RDHR start, count` (0x03), spec/43_read_handlers.md rule R112; `start` is 0-based. -/
  | rdhr (start count : Word)
  /-- `WRCOIL addr, value` (0x05), spec/44_write_handlers.md rule R120; `addr` is 0-based. -/
  | wrcoil (addr value : Word)
  /-- `WRREG addr, value` (0x06), spec/44_write_handlers.md rule R122; `addr` is 0-based. -/
  | wrreg (addr value : Word)
  /-- `ILLFC`, every other function code, spec/42_dispatcher.md rule R102: "Operands: req[1] only". -/
  | illfc (fc : Byte)
  deriving DecidableEq, Repr

/-- Why a request is not answered: the causes of `NoResponse`, spec/60_exceptions.md rule R141. -/
inductive DropCause where
  /-- `SHORT`, rule R91 -/
  | short
  /-- `ADDR`, rule R92 -/
  | addr
  /-- `CRC`, rule R93 -/
  | crc
  /-- `COUNT`, rule R110 -/
  | count
  /-- `RANGE`, rules R110, R112, R120, R122 -/
  | range
  /-- `VALUE`, rule R120 -/
  | value
  /-- `READBACK`, rule R121 -/
  | readback
  deriving DecidableEq, Repr

/-- What the outside does to the block (spec/60_exceptions.md rule R148, spec/70_reset_and_hazards.md rule R170). -/
inductive Event where
  /-- The transport presents one complete frame, `req[0..L)`. -/
  | frame (bytes : List Byte)
  /-- The transport presents a frame and reset is asserted before its outcome: the transaction is abandoned. -/
  | cutFrame (bytes : List Byte)
  /-- Reset is asserted and released while the block is idle. -/
  | reset
  deriving DecidableEq, Repr

end Sys2Proof
end

