-- ==== Sys2Proof/Machine/Validator.lean ====
section
/-! DEFINITION. The Frame Validator (spec/41_frame_validator.md). -/

namespace Sys2Proof.Machine

/-- The two trailer bytes as `(crcMSB, crcLSB)`: `req[L-2]` is the high byte (spec/20_memory.md rule R37), or the low byte
under the other setting of `REQ_CRC_MSB_FIRST` (spec/90_conflicts.md C2, log 5). -/
def trailerBytes (cfg : Config) (req : List Byte) : Byte × Byte :=
  let first := byteAt req (req.length - 2)
  let second := byteAt req (req.length - 1)
  if cfg.reqCrcMsbFirst then (first, second) else (second, first)

/-- The CRC check of rule R93, over every byte before the trailer. -/
def requestCrcOk (cfg : Config) (req : List Byte) : Bool :=
  verifyCrc (req.take (req.length - 2)) (trailerBytes cfg req).1 (trailerBytes cfg req).2

/-- `Validate(req, L)` (rules R90 to R95): the first check that rejects, in the order length, address, CRC (rule R94), or
`none` when the frame is accepted. -/
def validate (cfg : Config) (req : List Byte) : Option DropCause :=
  if req.length < Config.minFrame then some .short
  else if byteAt req 0 ≠ cfg.slaveId then some .addr
  else if requestCrcOk cfg req then none
  else some .crc

end Sys2Proof.Machine
end

