-- ==== Sys2Proof/WellFormed.lean ====
section
/-! DEFINITION. What makes a request, a configuration and a frame well formed, each a Bool. -/

namespace Sys2Proof

/-- The four supported function codes (spec/30_encoding.md rule R61). -/
def supportedCode (fc : Byte) : Bool :=
  fc == 0x01#8 || fc == 0x03#8 || fc == 0x05#8 || fc == 0x06#8

/-- `ILLFC` stands for the 252 unsupported function codes only (spec/30_encoding.md rule R62). Every operand value of
the four supported functions is an encoding: a bad argument is dropped, not ill formed. -/
def Instr.wf : Instr → Bool
  | .rdcoil _ _ => true
  | .rdhr _ _ => true
  | .wrcoil _ _ => true
  | .wrreg _ _ => true
  | .illfc fc => !supportedCode fc

/-- spec/00_scope.md rule R4, with one reset value for every cell (spec/10_state.md rules R24, R25). -/
def Config.legal (cfg : Config) : Bool :=
  decide (1 ≤ cfg.numCoils) && decide (cfg.numCoils ≤ 65535) &&
  decide (1 ≤ cfg.numRegisters) && decide (cfg.numRegisters ≤ 125) &&
  decide (cfg.regReset.length = cfg.numRegisters) && decide (cfg.coilReset.length = cfg.numCoils)

/-- A frame the transport can present: `L <= BUF_CAP` (spec/20_memory.md rule R31). -/
def frameFits (bytes : List Byte) : Bool :=
  decide (bytes.length ≤ Config.bufCap)

/-- An event whose frame fits the request buffer (spec/20_memory.md rule R31). -/
def Event.fits : Event → Bool
  | .frame bytes => frameFits bytes
  | .cutFrame bytes => frameFits bytes
  | .reset => true

end Sys2Proof
end

