-- ==== Sys2Proof/Decode.lean ====
section
/-! DEFINITION. From the bytes of a frame to a request and back (spec/30_encoding.md). Decoding needs, in order, the three
validator checks, then `req[1]` through the map of rule R61, then the fields of rule R53 (rule R63); it is total, and a
frame it refuses is refused by the validator's own cause. -/

namespace Sys2Proof

open Sys2Proof.Machine

/-- The function-code map (spec/30_encoding.md rule R61, spec/42_dispatcher.md rule R101), total over the 256 values of
`req[1]`; the argument bytes play no part in the selection. -/
def dispatchFrame (req : List Byte) : Instr :=
  let fc := byteAt req 1
  if fc = 0x01#8 then .rdcoil (fieldF1 req) (fieldF2 req)
  else if fc = 0x03#8 then .rdhr (fieldF1 req) (fieldF2 req)
  else if fc = 0x05#8 then .wrcoil (fieldF1 req) (fieldF2 req)
  else if fc = 0x06#8 then .wrreg (fieldF1 req) (fieldF2 req)
  else .illfc fc

/-- Decode one frame (rule R63). -/
def decode (cfg : Config) (req : List Byte) : Except DropCause Instr :=
  match validate cfg req with
  | some cause => .error cause
  | none => .ok (dispatchFrame req)

/-- The function code of a request. -/
def Instr.code : Instr → Byte
  | .rdcoil _ _ => 0x01#8
  | .rdhr _ _ => 0x03#8
  | .wrcoil _ _ => 0x05#8
  | .wrreg _ _ => 0x06#8
  | .illfc fc => fc

/-- The four argument bytes `req[2..6)`, big-endian (rule R51). `ILLFC` ignores them: zeros. -/
def Instr.args : Instr → List Byte
  | .rdcoil start count => be16Bytes start ++ be16Bytes count
  | .rdhr start count => be16Bytes start ++ be16Bytes count
  | .wrcoil addr value => be16Bytes addr ++ be16Bytes value
  | .wrreg addr value => be16Bytes addr ++ be16Bytes value
  | .illfc _ => [0x00#8, 0x00#8, 0x00#8, 0x00#8]

/-- The trailer of a request: the CRC of all bytes before it, high byte first (rule R50), or low byte first under the
other setting of `REQ_CRC_MSB_FIRST`. -/
def withTrailer (cfg : Config) (covered : List Byte) : List Byte :=
  let c := crc16 covered
  covered ++ (if cfg.reqCrcMsbFirst then [hi8 c, lo8 c] else [lo8 c, hi8 c])

/-- A request frame with the bytes `pad` between its arguments and its trailer (rules R51, R55). -/
def encodePadded (cfg : Config) (i : Instr) (pad : List Byte) : List Byte :=
  withTrailer cfg (cfg.slaveId :: i.code :: (i.args ++ pad))

/-- The frame of a request, `L = 8` (rule R65). -/
def encode (cfg : Config) (i : Instr) : List Byte := encodePadded cfg i []

/-- `FC code, f1, f2` (rule R65): any function code with any arguments. -/
def encodeFc (cfg : Config) (code : Byte) (f1 f2 : Word) : List Byte :=
  withTrailer cfg (cfg.slaveId :: code :: (be16Bytes f1 ++ be16Bytes f2))

/-- `TO id: <request>` (rule R65). -/
def encodeTo (cfg : Config) (id : Byte) (i : Instr) : List Byte :=
  encode { cfg with slaveId := id } i

/-- `COILON addr` (rule R66). -/
def coilOn (addr : Word) : Instr := .wrcoil addr 0xFF00#16

/-- `COILOFF addr` (rule R66). -/
def coilOff (addr : Word) : Instr := .wrcoil addr 0x0000#16

/-- `RDCOIL1 n`: read the single coil with index `n`, for `n + 1 <= 65535` (rule R66). -/
def readCoil1 (n : Nat) : Instr := .rdcoil (BitVec.ofNat 16 (n + 1)) 1#16

/-- `RDHR1 a` (rule R66). -/
def readRegister1 (a : Word) : Instr := .rdhr a 1#16

/-- Byte `k` of a number, byte 0 its least significant. -/
def byteOfNat (w k : Nat) : Byte := BitVec.ofNat 8 (w / 256 ^ k)

/-- The six bytes before the trailer of the frame that a word of spec/opcode_table.json stands for. The table numbers the
bits of `req[1]` from 0 ("match_on": "req[1] (8 bits)"), so a word with no bit above the seventh is `req[1]`; a longer
word is `req[0..6)`, `req[0]` its least significant byte. The frame is addressed to this slave, whatever the word holds
in `req[0]` (log 18). -/
def tableBody (cfg : Config) (nbits w : Nat) : List Byte :=
  if nbits ≤ 8 ∨ w < 256 then
    [cfg.slaveId, byteOfNat w 0, 0x00#8, 0x00#8, 0x00#8, 0x00#8]
  else
    [cfg.slaveId, byteOfNat w 1, byteOfNat w 2, byteOfNat w 3, byteOfNat w 4, byteOfNat w 5]

/-- The frame of a table word, with the CRC trailer that makes it a frame the validator accepts. -/
def tableFrame (cfg : Config) (nbits w : Nat) : List Byte := withTrailer cfg (tableBody cfg nbits w)

/-- What the decoder reads from the frame of a table word. -/
def decodeTableWord (nbits w : Nat) : Option Instr :=
  match decode Config.reference (tableFrame Config.reference nbits w) with
  | .ok i => some i
  | .error _ => none

end Sys2Proof
end

