-- ==== Sys2Proof/Machine/State.lean ====
section
/-! DEFINITION. The state of the block (spec/10_state.md) as plain data, the reasons a step can stop, and the state after
reset (spec/10_state.md rules R22 to R26). -/

namespace Sys2Proof.Machine

/-- The outcome of the last transaction (spec/00_scope.md section 5.3), without its frame, which is the response buffer. -/
inductive TxStatus where
  /-- No transaction has ended since reset, or one is under way: no response pending (spec/10_state.md rule R26). -/
  | idle
  /-- `Respond(rsp[0..n))` -/
  | respond
  /-- `ExceptionFrame(rsp[0..n))` -/
  | exceptionFrame
  /-- `NoResponse(cause)` -/
  | noResponse (cause : DropCause)
  deriving DecidableEq, Repr

/-- One call on the digital I/O backend (spec/10_state.md rule R11). -/
inductive IoCall where
  /-- `CoilRead(index)` -/
  | read (index : Nat)
  /-- `CoilWrite(index, value)` -/
  | write (index : Nat) (value : Bool)
  deriving DecidableEq, Repr

/-- The Frame Processor. Two lists are equal exactly when they hold the same cells, so equal memories are equal data
(log 21). -/
structure State where
  /-- The configured constants (spec/10_state.md rule R13); no step changes them (log 1). -/
  cfg : Config
  /-- `HR[0..NUM_REGISTERS-1]` (rule R10) -/
  hr : List Word
  /-- `COIL[0..NUMCOILS-1]` (rule R11) -/
  coil : List Bool
  /-- The request buffer `req[0..L)` while a frame is presented, `none` when the block is idle (rules R17, R26). -/
  req : Option (List Byte)
  /-- The response buffer `rsp[0..n)` (rule R18); it stays readable until the next frame is taken
  (spec/60_exceptions.md rule R155, log 19). -/
  rsp : List Byte
  /-- The outcome of the last transaction. -/
  status : TxStatus
  /-- The calls on the backend of the current or last transaction, in the order they were made (spec/20_memory.md
  rule R40). -/
  io : List IoCall
  /-- What the outside does next (rule R14: the transport holds the sequence of frames; log 13). -/
  line : List Event
  /-- The model's own: how many free values an oracle backend has drawn (log 9). -/
  draws : Nat
  deriving DecidableEq, Repr

/-- Why the machine stops with a fault: never. "No error is fatal to the process" (spec/60_exceptions.md rule R146), and
every bad argument is a defined outcome, so the type has no constructor. -/
inductive Fault where
  deriving DecidableEq, Repr

/-- Inputs and configurations to which the spec gives no meaning and which it tells a model to refuse. -/
inductive Refusal where
  /-- An instruction with no meaning yet. Raised by no arm. Safe. -/
  | notModelled (mnemonic : String)
  /-- Raised by the step for a frame of more than `BUF_CAP` bytes: it "cannot be presented" (spec/20_memory.md rule R31;
  spec/93_implementation_defined.md I5). Safe. -/
  | frameTooLong (length : Nat)
  /-- Raised by the step for a configuration outside spec/00_scope.md rule R4 ("a model refuses such a configuration").
  Safe. -/
  | illegalConfig
  deriving DecidableEq, Repr

/-- The block right after reset is released, for any configuration (spec/10_state.md rules R22 to R26,
spec/70_reset_and_hazards.md rules R170, R171): the Device Image holds its defaults, no frame is pending, the response
buffer is empty. -/
def State.resetOf (cfg : Config) : State where
  cfg := cfg
  hr := cfg.regReset
  coil := cfg.coilReset
  req := none
  rsp := []
  status := .idle
  io := []
  line := []
  draws := 0

/-- The block right after reset in the reference configuration (log 2, log 3). -/
def State.reset : State := State.resetOf Config.reference

end Sys2Proof.Machine
end

