-- ==== Sys2Proof/Machine/Ops.lean ====
section
/-! DEFINITION. The named operations over the Device Image, the backend and the two buffers; ending a transaction; taking
the one protocol exception (spec/42_dispatcher.md rule R102) and the return from it (spec/60_exceptions.md rule R146);
reset (spec/70_reset_and_hazards.md rule R170). -/

namespace Sys2Proof.Machine

/-- `HR[i]` (spec/00_scope.md section 5.2). Every rule checks the range first; outside it the value is 0, which no rule
reads (log 25). -/
def State.readHr (s : State) (i : Nat) : Word := s.hr.getD i 0#16

/-- `HR[i] <- v` -/
def State.writeHr (s : State) (i : Nat) (v : Word) : State :=
  { s with hr := s.hr.set i v }

/-- The registers `HR[start .. start+count-1]`, ascending (spec/43_read_handlers.md rule R112). -/
def State.readHrs (s : State) (start count : Nat) : List Word :=
  (List.range count).map fun k => s.readHr (start + k)

/-- `CoilWrite(i, b)` (spec/10_state.md rule R12). Under an oracle backend the coil holds what the backend made of the
write, a free value (spec/44_write_handlers.md rule R121; log 26). -/
def State.coilWrite (s : State) (i : Nat) (b : Bool) : State :=
  match s.cfg.backend with
  | .ideal => { s with coil := s.coil.set i b, io := s.io ++ [.write i b] }
  | .oracle =>
    { s with
      coil := s.coil.set i (Config.freeCoilAfterWrite s.draws)
      io := s.io ++ [.write i b]
      draws := s.draws + 1 }

/-- What `CoilRead(i)` answers: `COIL[i]`, or any Boolean under an oracle backend (spec/10_state.md rule R12; log 9). -/
def State.coilAnswer (s : State) (i : Nat) : Bool :=
  match s.cfg.backend with
  | .ideal => s.coil.getD i false
  | .oracle => Config.freeCoilRead s.draws

/-- The state after `CoilRead(i)`: the call has been made; under an oracle backend one free value has been drawn. -/
def State.coilRead (s : State) (i : Nat) : State :=
  match s.cfg.backend with
  | .ideal => { s with io := s.io ++ [.read i] }
  | .oracle => { s with io := s.io ++ [.read i], draws := s.draws + 1 }

/-- The answers of `count` coil reads from index `i` on, ascending, each once (spec/20_memory.md rule R40). -/
def State.coilAnswers (s : State) (i : Nat) : Nat → List Bool
  | 0 => []
  | count + 1 => s.coilAnswer i :: (s.coilRead i).coilAnswers (i + 1) count

/-- The state after those coil reads. -/
def State.coilReads (s : State) (i : Nat) : Nat → State
  | 0 => s
  | count + 1 => (s.coilRead i).coilReads (i + 1) count

/-- The bytes `req[0..L)` of the frame presented. -/
def State.reqBytes (s : State) : List Byte := s.req.getD []

/-- A transaction begins: the response buffer is fresh (spec/10_state.md rule R18) and no call has been made. -/
def State.begin (s : State) : State :=
  { s with rsp := [], status := .idle, io := [] }

/-- The payload is written to the response buffer, "built fresh per request" (spec/10_state.md rule R18). -/
def State.writePayload (s : State) (payload : List Byte) : State :=
  { s with rsp := payload }

/-- `Frame(rsp, m)` (spec/45_response_framer.md rule R130): the CRC over the whole payload, low byte then high byte. -/
def State.frameResponse (s : State) : State :=
  { s with rsp := framed s.rsp }

/-- A transaction ends: the outcome is presented, the request frame is discarded (spec/10_state.md rule R14), and the
block awaits the next frame. This is all the return there is, from an exception response too (spec/60_exceptions.md
rule R146). -/
def State.finish (s : State) (status : TxStatus) : State :=
  { s with status := status, req := none }

/-- The end of a transaction that answers: payload, CRC, hand-off (spec/45_response_framer.md rules R130 to R132). -/
def State.respond (s : State) (payload : List Byte) : State :=
  ((s.writePayload payload).frameResponse).finish .respond

/-- `raise Drop(cause)`: the transaction ends with no response frame and nothing further written (spec/00_scope.md
section 5.2, spec/60_exceptions.md rules R140, R145). -/
def State.drop (s : State) (cause : DropCause) : State :=
  (s.writePayload []).finish (.noResponse cause)

/-- TAKING THE EXCEPTION, `raise IllegalFunction(fc)`: the Exception Builder's payload is the slave id, the function code
with bit 7 set and the exception code; the framer appends the CRC (spec/42_dispatcher.md rule R102). It saves nothing,
switches no mode and vectors nowhere (spec/60_exceptions.md rule R145). -/
def State.raiseIllegalFunction (s : State) (fc : Byte) : State :=
  ((s.writePayload [s.cfg.slaveId, fc ||| 0x80#8, Config.excCode]).frameResponse).finish .exceptionFrame

/-- The echo of 0x05 and 0x06: the payload is `req[0..6)` copied byte for byte from the request buffer
(spec/44_write_handlers.md rule R123). -/
def State.echo (s : State) : State := s.respond (s.reqBytes.take 6)

/-- The transport presents a frame (spec/60_exceptions.md rule R148); the last response is gone. -/
def State.deliver (s : State) (bytes : List Byte) (rest : List Event) : State :=
  { s.begin with req := some bytes, line := rest }

/-- Reset is asserted and released (spec/70_reset_and_hazards.md rule R170): the image holds its defaults, the block is
idle, no response is pending; a transaction in progress has no outcome. -/
def State.applyReset (s : State) (rest : List Event) : State :=
  { State.resetOf s.cfg with line := rest, draws := s.draws }

end Sys2Proof.Machine
end

