-- ==== Sys2Proof/Machine/ExceptionBuilder.lean ====
section
/-! DEFINITION. The meaning of an unsupported function code (spec/42_dispatcher.md rule R102). -/

namespace Sys2Proof.Machine

/-- `ILLFC`: the exception is taken. "Always succeeds (no validation to fail)." -/
def execIllfc (fc : Byte) (s : State) : Host.Outcome State Fault Refusal :=
  .next (s.raiseIllegalFunction fc)

end Sys2Proof.Machine
end

