-- ==== Sys2Proof/Machine/ReadHandlers.lean ====
section
/-! DEFINITION. The read handlers (spec/43_read_handlers.md). Sums are on natural numbers and never wrap (rule R114). -/

namespace Sys2Proof.Machine

/-- `RDCOIL start, count` (rules R110, R111): COUNT, then RANGE, then one `CoilRead` per coil, ascending, packed
least significant bit first. -/
def execRdcoil (start count : Word) (s : State) : Host.Outcome State Fault Refusal :=
  if count.toNat < 1 ∨ count.toNat > Config.coilCountMax then .next (s.drop .count)
  else if start.toNat < 1 ∨ (start.toNat - 1) + count.toNat > s.cfg.numCoils then .next (s.drop .range)
  else
    .next ((s.coilReads (start.toNat - 1) count.toNat).respond
      ([s.cfg.slaveId, 0x01#8, BitVec.ofNat 8 (coilByteCount count.toNat)] ++
        packCoils (s.coilAnswers (start.toNat - 1) count.toNat)))

/-- `RDHR start, count` (rules R112, R113): RANGE, then `count` registers, each high byte first; a count of 0 is
answered. -/
def execRdhr (start count : Word) (s : State) : Host.Outcome State Fault Refusal :=
  if start.toNat + count.toNat > s.cfg.numRegisters then .next (s.drop .range)
  else
    .next (s.respond
      ([s.cfg.slaveId, 0x03#8, BitVec.ofNat 8 (2 * count.toNat)] ++
        (s.readHrs start.toNat count.toNat).flatMap be16Bytes))

end Sys2Proof.Machine
end

