-- ==== Sys2Proof/Machine/WriteHandlers.lean ====
section
/-! DEFINITION. The write handlers (spec/44_write_handlers.md). -/

namespace Sys2Proof.Machine

/-- `WRCOIL addr, value` (rules R120, R121, R123): VALUE, then RANGE, then the write, then the read-back, which is not
undone on a mismatch, then the echo. -/
def execWrcoil (addr value : Word) (s : State) : Host.Outcome State Fault Refusal :=
  match decodeCoilValue value with
  | none => .next (s.drop .value)
  | some b =>
    if addr.toNat ≥ s.cfg.numCoils then .next (s.drop .range)
    else if (s.coilWrite addr.toNat b).coilAnswer addr.toNat = b then
      .next (((s.coilWrite addr.toNat b).coilRead addr.toNat).echo)
    else .next (((s.coilWrite addr.toNat b).coilRead addr.toNat).drop .readback)

/-- `WRREG addr, value` (rules R122, R123): RANGE, then the store when `WR_REG_STORE` is set, then the echo. -/
def execWrreg (addr value : Word) (s : State) : Host.Outcome State Fault Refusal :=
  if addr.toNat ≥ s.cfg.numRegisters then .next (s.drop .range)
  else if s.cfg.wrRegStore then .next ((s.writeHr addr.toNat value).echo)
  else .next s.echo

end Sys2Proof.Machine
end

