-- ==== Sys2Proof/Machine/Dispatch.lean ====
section
/-! DEFINITION. One arm per request kind (spec/42_dispatcher.md rule R101). -/

namespace Sys2Proof.Machine

open Sys2Proof

def exec (i : Instr) (s : State) : Host.Outcome State Fault Refusal :=
  match i with
  | .rdcoil start count => Sys2Proof.Machine.execRdcoil start count s
  | .rdhr start count => Sys2Proof.Machine.execRdhr start count s
  | .wrcoil addr value => Sys2Proof.Machine.execWrcoil addr value s
  | .wrreg addr value => Sys2Proof.Machine.execWrreg addr value s
  | .illfc fc => Sys2Proof.Machine.execIllfc fc s

end Sys2Proof.Machine
end

