-- ==== Sys2Proof/Machine/Flags.lean ====
section
/-! DEFINITION. The block has no status flags, condition codes or sticky error bits (spec/10_state.md rule R15). The only
per-transaction status is the outcome: here it is read off the state, as the tagged result of spec/00_scope.md
section 5.3. -/

namespace Sys2Proof.Machine

/-- The tagged result of a transaction (spec/42_dispatcher.md rule R104). -/
inductive TxOutcome where
  | respond (frame : List Byte)
  | exceptionFrame (frame : List Byte)
  | noResponse (cause : DropCause)
  deriving DecidableEq, Repr

/-- The outcome of the last transaction, `none` when no transaction has ended since reset or the last frame's delivery. -/
def State.outcome (s : State) : Option TxOutcome :=
  match s.status with
  | .idle => none
  | .respond => some (.respond s.rsp)
  | .exceptionFrame => some (.exceptionFrame s.rsp)
  | .noResponse cause => some (.noResponse cause)

end Sys2Proof.Machine
end

