-- ==== Sys2Proof/Machine/Transaction.lean ====
section
/-! DEFINITION. The transaction as a whole (spec/42_dispatcher.md rule R103) and the run over a sequence of frames. -/

namespace Sys2Proof.Machine

/-- `Step(S, req, L)` of rule R103: validate, dispatch, run one handler or the Exception Builder. A rejected frame produces
nothing and changes nothing (spec/41_frame_validator.md rule R96). -/
def transact (frame : List Byte) (s : State) : Host.Outcome State Fault Refusal :=
  match decode s.cfg frame with
  | .error cause => .next (s.begin.drop cause)
  | .ok i => exec i s.begin

/-- What the block does with the frame presented: a transaction; a frame longer than the buffer has no meaning
(spec/20_memory.md rule R31). -/
def process (frame : List Byte) (s : State) : Host.Outcome State Fault Refusal :=
  if frameFits frame then transact frame s else .refused (.frameTooLong frame.length)

/-- What the outside does when the block is idle (spec/70_reset_and_hazards.md rules R170, R173): nothing more, and the
block goes on waiting (spec/92_eei_decisions.md D23); a frame is presented; a frame is presented and its transaction
abandoned by reset; a reset. -/
def takeEvent (s : State) : Host.Outcome State Fault Refusal :=
  match s.line with
  | [] => .next s
  | .frame bytes :: rest =>
    if frameFits bytes then .next (s.deliver bytes rest) else .refused (.frameTooLong bytes.length)
  | .cutFrame bytes :: rest =>
    if frameFits bytes then .next (s.applyReset rest) else .refused (.frameTooLong bytes.length)
  | .reset :: rest => .next (s.applyReset rest)

/-- `Step(S, req, L) -> (S', outcome)` as rule R103's `Run` uses it: the frame is presented and its transaction run. -/
def runFrame (s : State) (frame : List Byte) : Host.Outcome State Fault Refusal :=
  process frame { s with req := some frame }

/-- `Run(S0, [f1 .. fm])` of rule R103: the state after all frames and the outcome of each, in arrival order. -/
def runFrames (s : State) : List (List Byte) → Host.Outcome (State × List (Option TxOutcome)) Fault Refusal
  | [] => .next (s, [])
  | frame :: rest =>
    match runFrame s frame with
    | .fault r => .fault r
    | .refused r => .refused r
    | .next s1 =>
      match runFrames s1 rest with
      | .fault r => .fault r
      | .refused r => .refused r
      | .next (s2, outs) => .next (s2, s1.outcome :: outs)

end Sys2Proof.Machine
end

