-- ==== Sys2Proof/Machine/Step.lean ====
section
/-! DEFINITION. One step of the machine: the transaction of the frame presented, or, when none is, what the outside does
next (spec/42_dispatcher.md rule R103, spec/10_state.md rule R14). -/

namespace Sys2Proof.Machine

/-- One step. A configuration outside spec/00_scope.md rule R4 has no meaning. -/
def step (s : State) : Host.Outcome State Fault Refusal :=
  if s.cfg.legal then
    match s.req with
    | some frame => process frame s
    | none => takeEvent s
  else .refused .illegalConfig

/-- The frame of a table word is presented: the very next step is its transaction (log 13, log 18). -/
def State.withFetchWord (s : State) (nbits w : Nat) : State :=
  { s with req := some (tableFrame s.cfg nbits w) }

end Sys2Proof.Machine
end

