-- ==== Sys2Proof/Safety.lean ====
section
/-! DEFINITION. What a good state and a safe run are, in the words the statements use. -/

namespace Sys2Proof.Machine

/-- The Device Image has its configured size, and no buffer is over its capacity (spec/10_state.md rules R10, R11, R17,
R18; spec/20_memory.md rules R31, R32). This is the canonical form of the four address spaces. -/
def State.memoryWf (s : State) : Bool :=
  decide (s.hr.length = s.cfg.numRegisters) && decide (s.coil.length = s.cfg.numCoils) &&
  decide (s.reqBytes.length ≤ Config.bufCap) && decide (s.rsp.length ≤ 255)

/-- The response buffer agrees with the outcome: empty when nothing is answered (spec/60_exceptions.md rule R140), a
framed payload otherwise (spec/45_response_framer.md rule R131), five bytes for an exception response
(spec/42_dispatcher.md rule R102). -/
def State.responseWf (s : State) : Prop :=
  match s.status with
  | .idle => s.rsp = []
  | .noResponse _ => s.rsp = []
  | .respond => 5 ≤ s.rsp.length ∧ ∃ payload, s.rsp = framed payload
  | .exceptionFrame => s.rsp.length = 5 ∧ ∃ payload, s.rsp = framed payload

/-- The invariant of the machine. -/
def State.Inv (s : State) : Prop :=
  s.cfg.legal = true ∧ s.memoryWf = true ∧ s.responseWf

/-- Nothing the block keeps between transactions differs: the Device Image and the constants (spec/10_state.md
rule R19). -/
def sameImage (s t : State) : Prop :=
  t.cfg = s.cfg ∧ t.hr = s.hr ∧ t.coil = s.coil

/-- The whole effect of a dropped frame: no response, and everything else as before (spec/60_exceptions.md
rule R145). -/
def dropped (s : State) (cause : DropCause) : State :=
  { s with req := none, rsp := [], status := .noResponse cause }

/-- The causes for which each handler drops a frame (the table of spec/60_exceptions.md rule R141); the Exception Builder
drops none. -/
def handlerCauses : Instr → List DropCause
  | .rdcoil _ _ => [.count, .range]
  | .rdhr _ _ => [.range]
  | .wrcoil _ _ => [.value, .range, .readback]
  | .wrreg _ _ => [.range]
  | .illfc _ => []

end Sys2Proof.Machine
end

