-- ==== Sys2Proof/Certificates/Slice0/Obligations.lean ====
section
/-! DEFINITION. The statements for the provers. Each cites the rules or the sections of spec/ it formalises; OBLIGATIONS.json
lists them. -/

open Sys2Proof Sys2Proof.Machine

/-! ### The CRC codec (spec/40_crc.md) -/

/-- 40_crc.md R80: the register starts at 0xFFFF; each byte, in ascending index, is exclusive-ored into the low byte and
followed by eight right shifts, with 0xA001 exclusive-ored in whenever the bit that left was 1. -/
def Obligations.CrcFollowsByteLoop : Prop :=
  crc16 [] = 0xFFFF#16 ∧
  ∀ (data : List Byte) (b : Byte),
    crc16 (data ++ [b]) =
      (fun c : Word => if c.getLsbD 0 then (c >>> 1) ^^^ 0xA001#16 else c >>> 1)^[8]
        (crc16 data ^^^ b.setWidth 16)

/-- 40_crc.md R85: feeding the message bits one at a time, each byte least significant bit first, gives the same
register. -/
def Obligations.CrcBitSerialFormAgrees : Prop :=
  ∀ data : List Byte, crcSerial data = crc16 data

/-- 40_crc.md R81. -/
def Obligations.VerifyCrcComparesAllBits : Prop :=
  ∀ (data : List Byte) (crcMSB crcLSB : Byte),
    verifyCrc data crcMSB crcLSB = true ↔
      crc16 data = ((crcMSB.setWidth 16 <<< 8) ||| crcLSB.setWidth 16)

/-- 40_crc.md R86: `verifyCRC` accepts iff the CRC matches, and flipping any single bit of the data or of the two CRC
bytes makes it fail. -/
def Obligations.SingleBitFlipFailsVerification : Prop :=
  ∀ (data : List Byte) (crcMSB crcLSB : Byte),
    (verifyCrc data crcMSB crcLSB = true ↔ crc16 data = be16 crcMSB crcLSB) ∧
    (verifyCrc data crcMSB crcLSB = true →
      (∀ k b : Nat, k < data.length → b < 8 →
        verifyCrc (data.set k (byteAt data k ^^^ (1#8 <<< b))) crcMSB crcLSB = false) ∧
      (∀ b : Nat, b < 8 →
        verifyCrc data (crcMSB ^^^ (1#8 <<< b)) crcLSB = false ∧
        verifyCrc data crcMSB (crcLSB ^^^ (1#8 <<< b)) = false))

/-- 95_test_vectors.md S2, for every accepted frame of any length: a flip in byte 0 is dropped as ADDR, every other flip as
CRC. That a flip in byte 0, which fails the CRC check too, is recorded as ADDR rests on the order of the checks, the spec's
decision (92_eei_decisions.md D18; log 16); that it holds for both settings of the trailer's byte order rests on the model's
reading of the other setting (D3; log 5). -/
def Obligations.SingleBitFlipDropsFrame : Prop :=
  ∀ (cfg : Config) (f : List Byte) (k b : Nat),
    validate cfg f = none → k < f.length → b < 8 →
      validate cfg (f.set k (byteAt f k ^^^ (1#8 <<< b))) = some (if k = 0 then .addr else .crc)

/-- 45_response_framer.md, closing note: the CRC of a framed response including its trailer is 0x0000. -/
def Obligations.FramedResponseHasZeroResidue : Prop :=
  ∀ payload : List Byte, crc16 (framed payload) = 0x0000#16

/-- 45_response_framer.md R130: the payload is kept, its CRC follows low byte then high byte, the total length is `m + 2`,
and nothing but the response buffer is written. -/
def Obligations.FramerAppendsCrcLowByteFirst : Prop :=
  ∀ (s : State) (payload : List Byte),
    (s.writePayload payload).frameResponse =
        { s with rsp := payload ++ [(crc16 payload).setWidth 8, (crc16 payload >>> 8).setWidth 8] } ∧
    (s.writePayload payload).frameResponse.rsp.length = payload.length + 2

/-! ### The Frame Validator (spec/41_frame_validator.md) -/

/-- 41_frame_validator.md R90, at the spec's trailer order (`REQ_CRC_MSB_FIRST`): a frame is accepted exactly when its
length is at least 8, byte 0 is the slave id and the CRC of all bytes before the trailer is the big-endian trailer; it is
then forwarded to the dispatcher. Any other frame is dropped, with no response. -/
def Obligations.FrameAcceptedExactlyWhenThreeChecksPass : Prop :=
  ∀ (cfg : Config) (f : List Byte), cfg.reqCrcMsbFirst = true →
    ((validate cfg f = none ↔
      8 ≤ f.length ∧ f[0]? = some cfg.slaveId ∧
      ∃ h l : Byte, f[f.length - 2]? = some h ∧ f[f.length - 1]? = some l ∧
        crc16 (f.take (f.length - 2)) = ((h.setWidth 16 <<< 8) ||| l.setWidth 16)) ∧
    (validate cfg f = none → decode cfg f = .ok (dispatchFrame f)) ∧
    (∀ s : State, s.cfg = cfg → validate cfg f ≠ none →
      ∃ t cause, transact f s = .next t ∧ t.outcome = some (.noResponse cause) ∧ t.rsp = []))

/-- 41_frame_validator.md sections R91 to R94: the recorded cause is the first check that fails, in the order length,
address, CRC. The order is the spec's own decision (92_eei_decisions.md D18; log 16); what the CRC check is under the other
setting of `REQ_CRC_MSB_FIRST` is the model's reading (D3; log 5). -/
def Obligations.DropCauseIsFirstFailingCheck : Prop :=
  ∀ (cfg : Config) (f : List Byte),
    (validate cfg f = some .short ↔ f.length < 8) ∧
    (validate cfg f = some .addr ↔ 8 ≤ f.length ∧ f[0]? ≠ some cfg.slaveId) ∧
    (validate cfg f = some .crc ↔
      8 ≤ f.length ∧ f[0]? = some cfg.slaveId ∧ requestCrcOk cfg f = false)

/-- 41_frame_validator.md R96: a rejected frame produces nothing and changes nothing, and no backend call is made; only an
accepted frame with an unsupported function code yields an exception response. -/
def Obligations.RejectedFrameProducesNothing : Prop :=
  ∀ (s : State) (f : List Byte),
    s.cfg.legal = true → s.req = some f → f.length ≤ 256 →
      (∀ cause, validate s.cfg f = some cause →
        step s = .next { s with req := none, rsp := [], status := .noResponse cause, io := [] }) ∧
      (∀ t, step s = .next t → t.status = .exceptionFrame →
        validate s.cfg f = none ∧ ∃ fc, f[1]? = some fc ∧ fc ∉ [0x01#8, 0x03#8, 0x05#8, 0x06#8])

/-- 40_crc.md section 2 (the last sentence of its direction asymmetry): a frame the block itself produced is not accepted
if looped back, unless the two CRC bytes are equal. -/
def Obligations.LoopedBackResponseRejected : Prop :=
  ∀ (cfg : Config) (payload : List Byte),
    cfg.reqCrcMsbFirst = true → 6 ≤ payload.length → payload[0]? = some cfg.slaveId →
      (validate cfg (framed payload) = none ↔ hi8 (crc16 payload) = lo8 (crc16 payload))

/-! ### Encoding (spec/30_encoding.md) -/

/-- 30_encoding.md sections 1 and 5: decoding the frame of any well-formed request, with any bytes between its arguments
and its trailer, gives the request back, for every slave id and both trailer orders. Those sections give the trailer high byte
first; that the other setting of `REQ_CRC_MSB_FIRST` is the low byte first, in the validator and in the encoder, is the model's
reading (92_eei_decisions.md D3; log 5). That frames with padding are accepted is an inference the spec marks as its own
(D14; log 22). -/
def Obligations.DecodeEncodeGivesRequestBack : Prop :=
  ∀ (cfg : Config) (i : Instr) (pad : List Byte),
    i.wf = true → decode cfg (encodePadded cfg i pad) = .ok i

/-- The other direction: every frame the decoder accepts is the encoding of the request it reads, up to the bytes the
spec says are ignored (the padding; for an unsupported function code every argument byte). The cited sections, 30_encoding.md
1 and 5, give the trailer high byte first; the low-first trailer of the other setting of `REQ_CRC_MSB_FIRST` is the model's
reading (92_eei_decisions.md D3; log 5). The padding of longer frames is an inference the spec marks as its own (D14;
log 22). -/
def Obligations.AcceptedFrameIsItsRequestsEncoding : Prop :=
  ∀ (cfg : Config) (f : List Byte) (i : Instr), decode cfg f = .ok i →
    i.wf = true ∧
    match i with
    | .illfc fc => ∃ args, 4 ≤ args.length ∧ f = withTrailer cfg (cfg.slaveId :: fc :: args)
    | _ => ∃ pad, f = encodePadded cfg i pad

/-- 42_dispatcher.md R101 with 30_encoding.md R61: the map over all eight bits of `req[1]`, total; the argument fields are
the big-endian pairs at offsets 2 and 4. -/
def Obligations.FunctionCodeSelectsRequest : Prop :=
  ∀ (cfg : Config) (f : List Byte), validate cfg f = none →
    ∃ id fc a b c d rest, f = id :: fc :: a :: b :: c :: d :: rest ∧ id = cfg.slaveId ∧
      decode cfg f = .ok
        (if fc = 0x01#8 then .rdcoil (be16 a b) (be16 c d)
         else if fc = 0x03#8 then .rdhr (be16 a b) (be16 c d)
         else if fc = 0x05#8 then .wrcoil (be16 a b) (be16 c d)
         else if fc = 0x06#8 then .wrreg (be16 a b) (be16 c d)
         else .illfc fc)

/-- 20_memory.md section 2: a 16-bit field is big-endian, so its value is 256 times the byte at the lower offset plus the
byte at the higher, and writing it gives those bytes back. -/
def Obligations.FieldsAreBigEndian : Prop :=
  (∀ h l : Byte, (be16 h l).toNat = 256 * h.toNat + l.toNat ∧ be16Bytes (be16 h l) = [h, l]) ∧
  ∀ v : Word, be16 (hi8 v) (lo8 v) = v

/-- Frames of 95_test_vectors.md, written out byte by byte, one for each request kind, in the reference
configuration (log 2), whose trailer is high byte first (92_eei_decisions.md D3; log 5). -/
def Obligations.SampleFramesDecode : Prop :=
  decode Config.reference [0x01#8, 0x01#8, 0x00#8, 0x01#8, 0x00#8, 0x06#8, 0xC8#8, 0xED#8] = .ok (.rdcoil 1#16 6#16) ∧
  decode Config.reference [0x01#8, 0x03#8, 0x00#8, 0x00#8, 0x00#8, 0x0A#8, 0xCD#8, 0xC5#8] = .ok (.rdhr 0#16 10#16) ∧
  decode Config.reference [0x01#8, 0x05#8, 0x00#8, 0x01#8, 0xFF#8, 0x00#8, 0xFA#8, 0xDD#8] =
    .ok (.wrcoil 1#16 0xFF00#16) ∧
  decode Config.reference [0x01#8, 0x06#8, 0x00#8, 0x03#8, 0xAB#8, 0xCD#8, 0x6F#8, 0xC7#8] =
    .ok (.wrreg 3#16 0xABCD#16) ∧
  decode Config.reference [0x01#8, 0x99#8, 0x00#8, 0x00#8, 0x00#8, 0x00#8, 0xD6#8, 0x1D#8] = .ok (.illfc 0x99#8)

/-! ### The step (spec/42_dispatcher.md, spec/70_reset_and_hazards.md) -/

/-- 42_dispatcher.md section 3: when the frame presented decodes to `i`, the step is `i`'s meaning at the state in which
the transaction begins, with the response buffer fresh and no backend call made. -/
def Obligations.StepRunsDecodedRequest : Prop :=
  ∀ (s : State) (f : List Byte) (i : Instr),
    s.cfg.legal = true → s.req = some f → f.length ≤ 256 → decode s.cfg f = .ok i →
      step s = exec i { s with rsp := [], status := .idle, io := [] }

/-- 60_exceptions.md section 6 (the transport delivers one frame at a time) as the model has it: an idle block takes the
next frame of `line`. The field `line` is the model's (log 13, log 14). -/
def Obligations.IdleBlockTakesNextFrame : Prop :=
  ∀ (s : State) (f : List Byte) (rest : List Event),
    s.cfg.legal = true → s.req = none → s.line = .frame f :: rest → f.length ≤ 256 →
      step s = .next { s with req := some f, line := rest, rsp := [], status := .idle, io := [] }

/-- 92_eei_decisions.md D23 as the model has it (log 14): with no frame presented and none to come, the block goes on
waiting. -/
def Obligations.IdleBlockWaits : Prop :=
  ∀ s : State, s.cfg.legal = true → s.req = none → s.line = [] → step s = .next s

/-- 70_reset_and_hazards.md section 1, 10_state.md section 8: after a reset the image is the default image, whatever it held
before, the block is idle with no frame and no response pending, and a transaction it cut short has no outcome; the
constants are unchanged. The mechanism is the spec's decision (92_eei_decisions.md D16); that a reset is an event of `line`,
while idle or cutting a transaction short, is the model's (log 15). That `io` is empty says that no call is on record, not
that the abandoned transaction made none (log 15); `draws` is the model's own counter (log 9). -/
def Obligations.ResetReturnsDefaultImage : Prop :=
  ∀ (s : State) (rest : List Event),
    s.cfg.legal = true → s.req = none →
    (s.line = .reset :: rest ∨ ∃ f : List Byte, f.length ≤ 256 ∧ s.line = .cutFrame f :: rest) →
      step s = .next { State.resetOf s.cfg with line := rest, draws := s.draws } ∧
      ∀ t, step s = .next t →
        t.hr = s.cfg.regReset ∧ t.coil = s.cfg.coilReset ∧ t.cfg = s.cfg ∧ t.req = none ∧ t.rsp = [] ∧
        t.outcome = none ∧ t.io = [] ∧ t.line = rest

/-- 10_state.md section 8 and 70_reset_and_hazards.md section 1: in any configuration, the block out of reset is idle, with
no frame pending and an empty response buffer, and its constants as configured; the reference registers are 100 to 1000
(the elided middle is the spec's reading, log 4). -/
def Obligations.ResetLeavesBlockIdle : Prop :=
  (∀ cfg : Config,
    (State.resetOf cfg).cfg = cfg ∧ (State.resetOf cfg).hr = cfg.regReset ∧
    (State.resetOf cfg).coil = cfg.coilReset ∧ (State.resetOf cfg).req = none ∧
    (State.resetOf cfg).rsp = [] ∧ (State.resetOf cfg).outcome = none ∧ (State.resetOf cfg).io = []) ∧
  State.reset.hr =
    [0x0064#16, 0x00C8#16, 0x012C#16, 0x0190#16, 0x01F4#16, 0x0258#16, 0x02BC#16, 0x0320#16, 0x0384#16, 0x03E8#16]

/-- The invariant holds out of reset, for every configuration of 00_scope.md section 4, the reference one among them. -/
def Obligations.ResetMeetsInvariant : Prop :=
  State.reset.Inv ∧ ∀ cfg : Config, cfg.legal = true → (State.resetOf cfg).Inv

/-- HEADLINE. Every step keeps the invariant: the configuration stays legal, the register file and the coil file keep
their sizes, the buffers stay within their capacities, and the response buffer is empty unless the outcome is an answer,
whose frame is then a payload with its CRC, of 5 to 255 bytes (5 for an exception response). -/
def Obligations.StepKeepsInvariant : Prop :=
  ∀ s t : State, s.Inv → step s = .next t → t.Inv

/-- The machine stops only where the spec gives an input no meaning: from any state with a legal configuration whose
presented frame and next event fit the buffer, the step answers a next state; otherwise it refuses by name, with the length
of the frame that does not fit. The event `cutFrame` is the model's (log 15). -/
def Obligations.StepStopsOnlyOnMeaninglessInput : Prop :=
  ∀ s : State,
    (s.cfg.legal = false → step s = .refused .illegalConfig) ∧
    (s.cfg.legal = true →
      (∀ f, s.req = some f →
        (f.length ≤ 256 → ∃ t, step s = .next t) ∧
        (256 < f.length → step s = .refused (.frameTooLong f.length))) ∧
      (s.req = none →
        (s.line = [] → ∃ t, step s = .next t) ∧
        (∀ e rest, s.line = e :: rest →
          (e.fits = true → ∃ t, step s = .next t) ∧
          (e.fits = false → ∃ f, (e = .frame f ∨ e = .cutFrame f) ∧ 256 < f.length ∧
            step s = .refused (.frameTooLong f.length)))))

/-- 10_state.md section 3, 00_scope.md section 4: no step changes a configured constant. -/
def Obligations.ConstantsNeverChange : Prop :=
  ∀ s t : State, step s = .next t → t.cfg = s.cfg

/-- 42_dispatcher.md R104: every handler succeeds or fails; success is `Respond` with a framed frame, failure is
`NoResponse`, with one of the handler's causes in the table of 60_exceptions.md, and no frame at all; `ExceptionFrame` is
the Exception Builder's result and no handler's. -/
def Obligations.HandlersEndInExactlyOneOutcome : Prop :=
  ∀ (i : Instr) (s : State),
    ∃ t, exec i s = .next t ∧ t.req = none ∧
      match i with
      | .illfc _ => ∃ payload, t.rsp = framed payload ∧ t.outcome = some (.exceptionFrame t.rsp)
      | _ =>
        (∃ payload, t.rsp = framed payload ∧ t.outcome = some (.respond t.rsp)) ∨
        (∃ cause, t.rsp = [] ∧ t.outcome = some (.noResponse cause) ∧
          cause ∈ handlerCauses i)

/-- 45_response_framer.md: every response the block emits is a payload of 3 to 253 bytes followed by the CRC of exactly that
payload. It does not say which payload, nor by itself that the framer ran only once: the layout of each response stands in
the statements about its request. -/
def Obligations.EveryResponseIsFramedPayload : Prop :=
  ∀ (s t : State) (f : List Byte), s.Inv → s.req = some f → step s = .next t →
    (t.rsp = [] ∧ ∃ cause, t.outcome = some (.noResponse cause)) ∨
    ∃ payload, 3 ≤ payload.length ∧ payload.length ≤ 253 ∧ t.rsp = framed payload ∧
      (t.outcome = some (.respond t.rsp) ∨ t.outcome = some (.exceptionFrame t.rsp))

/-! ### Read Coils (spec/43_read_handlers.md section 1) -/

/-- `RDCOIL` completes, for either backend: `count` coil reads, ascending, each once, packed and framed; nothing else
changes. It rests on the spec's decisions for the range (92_eei_decisions.md D4, D5; log 6), for the ascending order of the
calls in `io` and of an oracle's draws, on which D8 says a claim should not depend (log 16), and for the bits beyond the last
coil, 0 in `packCoils` (D7; log 8). An oracle's answers are free values (log 9). -/
def Obligations.ReadCoilsAnswers : Prop :=
  ∀ (s : State) (start count : Word),
    s.coil.length = s.cfg.numCoils →
    1 ≤ count.toNat → count.toNat ≤ 2000 → 1 ≤ start.toNat →
    (start.toNat - 1) + count.toNat ≤ s.cfg.numCoils →
      ∃ answers : List Bool, answers.length = count.toNat ∧
        (s.cfg.backend = .ideal →
          ∀ k, k < count.toNat → answers[k]? = s.coil[(start.toNat - 1) + k]?) ∧
        (s.cfg.backend = .oracle →
          ∀ k, k < count.toNat → answers[k]? = some (Config.freeCoilRead (s.draws + k))) ∧
        exec (.rdcoil start count) s = .next
          { s with
            req := none
            status := .respond
            rsp := framed
              ([s.cfg.slaveId, 0x01#8, BitVec.ofNat 8 ((count.toNat + 7) / 8)] ++ packCoils answers)
            io := s.io ++ (List.range count.toNat).map fun k => .read ((start.toNat - 1) + k)
            draws := s.draws + (match s.cfg.backend with | .ideal => 0 | .oracle => count.toNat) }

/-- `RDCOIL` drops: COUNT outside [1, 2000], else RANGE; no coil is read. The order and the range are the spec's decisions
(92_eei_decisions.md D4, D5, D18; log 6, log 16). -/
def Obligations.ReadCoilsDropsBadArguments : Prop :=
  ∀ (s : State) (start count : Word),
    ((count.toNat < 1 ∨ 2000 < count.toNat) →
      exec (.rdcoil start count) s = .next (dropped s .count)) ∧
    (1 ≤ count.toNat → count.toNat ≤ 2000 →
      (start.toNat < 1 ∨ s.cfg.numCoils < (start.toNat - 1) + count.toNat) →
      exec (.rdcoil start count) s = .next (dropped s .range))

/-- 43_read_handlers.md section 1, packing: coil `i` is bit `i % 8` of byte `i / 8`; the bits beyond the last coil are 0
(the spec's decision, 92_eei_decisions.md D7; log 8). -/
def Obligations.CoilsPackedLeastSignificantFirst : Prop :=
  ∀ coils : List Bool,
    (packCoils coils).length = (coils.length + 7) / 8 ∧
    ∀ j b, j < (coils.length + 7) / 8 → b < 8 →
      ∃ byte, (packCoils coils)[j]? = some byte ∧
        byte.getLsbD b = (if 8 * j + b < coils.length then coils.getD (8 * j + b) false else false)

/-! ### Read Holding Registers (spec/43_read_handlers.md section 2) -/

/-- 43_read_handlers.md R112: answers when `start + count <= NUM_REGISTERS`, with the registers from `start` on, each high
byte first; otherwise drops the frame. Nothing else changes. -/
def Obligations.ReadRegistersAnswersOrDrops : Prop :=
  ∀ (s : State) (start count : Word),
    s.hr.length = s.cfg.numRegisters →
      (start.toNat + count.toNat ≤ s.cfg.numRegisters →
        ∃ values : List Word, values.length = count.toNat ∧
          (∀ k, k < count.toNat → values[k]? = s.hr[start.toNat + k]?) ∧
          exec (.rdhr start count) s = .next
            { s with
              req := none
              status := .respond
              rsp := framed
                ([s.cfg.slaveId, 0x03#8, BitVec.ofNat 8 (count.toNat * 2)] ++
                  values.flatMap fun v : Word => [(v >>> 8).setWidth 8, v.setWidth 8]) }) ∧
      (s.cfg.numRegisters < start.toNat + count.toNat →
        exec (.rdhr start count) s = .next (dropped s .range))

/-- 30_encoding.md R58, byte by byte: `RSP_REGS`, length `3 + 2*count + 2`. -/
def Obligations.RegisterResponseLayout : Prop :=
  ∀ (s : State) (start count : Word),
    s.cfg.legal = true → s.hr.length = s.cfg.numRegisters →
    start.toNat + count.toNat ≤ s.cfg.numRegisters →
      ∃ t, exec (.rdhr start count) s = .next t ∧ t.outcome = some (.respond t.rsp) ∧
        t.rsp.length = 3 + 2 * count.toNat + 2 ∧
        t.rsp[0]? = some s.cfg.slaveId ∧ t.rsp[1]? = some 0x03#8 ∧
        (∃ n : Byte, t.rsp[2]? = some n ∧ n.toNat = 2 * count.toNat) ∧
        (∀ k, k < count.toNat → ∃ v, s.hr[start.toNat + k]? = some v ∧
          t.rsp[3 + 2 * k]? = some (hi8 v) ∧ t.rsp[4 + 2 * k]? = some (lo8 v)) ∧
        t.rsp[3 + 2 * count.toNat]? = some (lo8 (crc16 (t.rsp.take (3 + 2 * count.toNat)))) ∧
        t.rsp[4 + 2 * count.toNat]? = some (hi8 (crc16 (t.rsp.take (3 + 2 * count.toNat))))

/-- 43_read_handlers.md section 2, count zero: a register count of 0 is answered with the 5-byte frame while `start <= NUM_REGISTERS`, and
dropped beyond; a coil count of 0 is dropped. That the last is recorded as COUNT whatever the start, also where the range
check fails too, rests on the order of the checks, the spec's decision (92_eei_decisions.md D18; log 16). -/
def Obligations.RegisterCountZeroAnswered : Prop :=
  ∀ (s : State) (start : Word),
    (start.toNat ≤ s.cfg.numRegisters →
      exec (.rdhr start 0#16) s = .next
        { s with req := none, status := .respond, rsp := framed [s.cfg.slaveId, 0x03#8, 0x00#8] }) ∧
    (s.cfg.numRegisters < start.toNat → exec (.rdhr start 0#16) s = .next (dropped s .range)) ∧
    exec (.rdcoil start 0#16) s = .next (dropped s .count) ∧
    framed [0x01#8, 0x03#8, 0x00#8] = [0x01#8, 0x03#8, 0x00#8, 0x20#8, 0xF0#8]

/-- 43_read_handlers.md section 3 (the spec's decision, 92_eei_decisions.md D6; log 7): a range whose sum needs 17 bits is
dropped, never wrapped. The bound a coil range is held against is the spec's decision too (D4; log 6). -/
def Obligations.RangeSumsDoNotWrap : Prop :=
  ∀ (s : State) (start count : Word),
    s.cfg.legal = true → 65536 ≤ start.toNat + count.toNat →
      exec (.rdhr start count) s = .next (dropped s .range) ∧
      (count.toNat ≤ 2000 → 65536 < start.toNat + count.toNat →
        exec (.rdcoil start count) s = .next (dropped s .range))

/-- 30_encoding.md R64: the byte-count byte of the two read responses counts the payload bytes that follow it, excluding
itself and the CRC. -/
def Obligations.ByteCountCountsPayload : Prop :=
  ∀ (s t : State) (start count : Word), s.cfg.legal = true →
    (exec (.rdcoil start count) s = .next t ∨ exec (.rdhr start count) s = .next t) →
    t.status = .respond →
      ∃ n : Byte, t.rsp[2]? = some n ∧ t.rsp.length = 3 + n.toNat + 2

/-- 10_state.md sections 6 and 7: a register response depends on nothing but the request, the constants and the registers,
and with the ideal backend a coil response on nothing but the request, the constants and the coils. -/
def Obligations.ReadResponsesDependOnTheirFileOnly : Prop :=
  ∀ (s1 s2 : State) (start count : Word), s1.cfg = s2.cfg →
    (s1.hr = s2.hr →
      ∃ t1 t2, exec (.rdhr start count) s1 = .next t1 ∧ exec (.rdhr start count) s2 = .next t2 ∧
        t1.outcome = t2.outcome) ∧
    (s1.coil = s2.coil → s1.cfg.backend = .ideal →
      ∃ t1 t2, exec (.rdcoil start count) s1 = .next t1 ∧ exec (.rdcoil start count) s2 = .next t2 ∧
        t1.outcome = t2.outcome)

/-! ### Write Single Coil (spec/44_write_handlers.md section 1) -/

/-- `WRCOIL` completes with the ideal backend: the coil holds the decoded value, the backend saw one write and one read of
it, the six request bytes are echoed; nothing else changes. Order of checks and read-back: 92_eei_decisions.md D10, D11.
That 0x0000 is the off value is an inference the spec marks as its own (30_encoding.md section 2; log 23). -/
def Obligations.WriteCoilDrivesCoilAndEchoes : Prop :=
  ∀ (s : State) (addr value : Word) (on : Bool),
    s.cfg.backend = .ideal → s.coil.length = s.cfg.numCoils → addr.toNat < s.cfg.numCoils →
    value = (if on then 0xFF00#16 else 0x0000#16) →
      exec (.wrcoil addr value) s = .next
        { s with
          coil := s.coil.set addr.toNat on
          req := none
          status := .respond
          rsp := framed (s.reqBytes.take 6)
          io := s.io ++ [.write addr.toNat on, .read addr.toNat] }

/-- `WRCOIL` drops a bad value, else a bad address, before any write (92_eei_decisions.md D10, D18; log 16). -/
def Obligations.WriteCoilDropsBadArguments : Prop :=
  ∀ (s : State) (addr value : Word),
    (value ≠ 0xFF00#16 → value ≠ 0x0000#16 →
      exec (.wrcoil addr value) s = .next (dropped s .value)) ∧
    ((value = 0xFF00#16 ∨ value = 0x0000#16) → s.cfg.numCoils ≤ addr.toNat →
      exec (.wrcoil addr value) s = .next (dropped s .range))

/-- With an oracle backend the read-back decides: the request is echoed when the answer is the value written, and dropped
with READBACK, the write having been issued, when it is not. What the coil holds and what the backend answers are free
values (10_state.md section 2, 92_eei_decisions.md D11; log 9, log 26). For `on = false` the value written, the write on record
and the read-back compared rest on 0x0000 meaning off, an inference the spec marks as its own (30_encoding.md section 2;
log 23). -/
def Obligations.OracleReadBackDecides : Prop :=
  ∀ (s : State) (addr value : Word) (on : Bool),
    s.cfg.backend = .oracle → addr.toNat < s.cfg.numCoils →
    value = (if on then 0xFF00#16 else 0x0000#16) →
      exec (.wrcoil addr value) s = .next
        { s with
          coil := s.coil.set addr.toNat (Config.freeCoilAfterWrite s.draws)
          req := none
          status := if Config.freeCoilRead (s.draws + 1) = on then .respond else .noResponse .readback
          rsp := if Config.freeCoilRead (s.draws + 1) = on then framed (s.reqBytes.take 6) else []
          io := s.io ++ [.write addr.toNat on, .read addr.toNat]
          draws := s.draws + 2 }

/-- 44_write_handlers.md section 1, last sentence of the read-back (92_eei_decisions.md D10, D11): with the ideal backend
`Drop(READBACK)` cannot occur. -/
def Obligations.IdealBackendNeverFailsReadBack : Prop :=
  ∀ (s t : State) (i : Instr),
    s.cfg.backend = .ideal → s.coil.length = s.cfg.numCoils → exec i s = .next t →
      t.status ≠ .noResponse .readback

/-! ### Write Single Register (spec/44_write_handlers.md section 2) -/

/-- `WRREG` completes for every value: the echo, and the store exactly when `WR_REG_STORE` is set; an address out of range
is dropped. Storing nothing is the reference device's behaviour (92_eei_decisions.md D9; log 10). -/
def Obligations.WriteRegisterEchoesAndStoresIfConfigured : Prop :=
  ∀ (s : State) (addr value : Word),
    (addr.toNat < s.cfg.numRegisters →
      exec (.wrreg addr value) s = .next
        { s with
          hr := if s.cfg.wrRegStore then s.hr.set addr.toNat value else s.hr
          req := none
          status := .respond
          rsp := framed (s.reqBytes.take 6) }) ∧
    (s.cfg.numRegisters ≤ addr.toNat →
      exec (.wrreg addr value) s = .next (dropped s .range))

/-- 44_write_handlers.md R123: an answered 0x05 or 0x06 request is answered with `req[0..6)` copied byte for byte, the
slave id and the function code first. -/
def Obligations.EchoCopiesSixRequestBytes : Prop :=
  ∀ (s t : State) (f : List Byte) (addr value : Word),
    s.req = some f → (decode s.cfg f = .ok (.wrcoil addr value) ∨ decode s.cfg f = .ok (.wrreg addr value)) →
    step s = .next t → t.status = .respond →
      t.rsp = framed (f.take 6) ∧ (∀ k, k < 6 → t.rsp[k]? = f[k]?) ∧
      t.rsp[0]? = some s.cfg.slaveId ∧
      (decode s.cfg f = .ok (.wrcoil addr value) → t.rsp[1]? = some 0x05#8) ∧
      (decode s.cfg f = .ok (.wrreg addr value) → t.rsp[1]? = some 0x06#8)

/-- 30_encoding.md section 3, last sentence on the echo format: the echo of an 8-byte request is the request with its last
two bytes exchanged. -/
def Obligations.EchoExchangesCrcBytes : Prop :=
  ∀ (s t : State) (f : List Byte) (addr value : Word),
    s.cfg.reqCrcMsbFirst = true → s.req = some f → f.length = 8 →
    (decode s.cfg f = .ok (.wrcoil addr value) ∨ decode s.cfg f = .ok (.wrreg addr value)) →
    step s = .next t → t.status = .respond →
      t.rsp = f.take 6 ++ [byteAt f 7, byteAt f 6]

/-! ### Unsupported function codes (spec/42_dispatcher.md section 2) -/

/-- 30_encoding.md R60: `ILLFC` always completes, with the 5-byte frame; nothing else changes. -/
def Obligations.ExceptionResponseLayout : Prop :=
  ∀ (s : State) (fc : Byte), ∃ c0 c1 : Byte,
    exec (.illfc fc) s = .next
      { s with
        req := none
        status := .exceptionFrame
        rsp := [s.cfg.slaveId, fc ||| 0x80#8, 0x01#8, c0, c1] } ∧
    c0 = lo8 (crc16 [s.cfg.slaveId, fc ||| 0x80#8, 0x01#8]) ∧
    c1 = hi8 (crc16 [s.cfg.slaveId, fc ||| 0x80#8, 0x01#8])

/-- 42_dispatcher.md R102: every accepted frame with an unsupported function code is answered with the exception response,
whatever its argument bytes are; the Device Image is untouched and no backend call is made; no frame yields an exception
code other than 0x01. -/
def Obligations.UnsupportedCodeGetsException : Prop :=
  ∀ (s : State) (f : List Byte) (fc : Byte),
    s.cfg.legal = true → s.req = some f → f.length ≤ 256 → validate s.cfg f = none →
    f[1]? = some fc → fc ∉ [0x01#8, 0x03#8, 0x05#8, 0x06#8] →
      step s = .next
        { s with
          req := none
          status := .exceptionFrame
          rsp := framed [s.cfg.slaveId, fc ||| 0x80#8, 0x01#8]
          io := [] } ∧
      (framed [s.cfg.slaveId, fc ||| 0x80#8, 0x01#8]).length = 5 ∧
      ∀ t g, step { s with req := some g } = .next t → t.status = .exceptionFrame → t.rsp[2]? = some 0x01#8

/-! ### Who may change the Device Image (spec/10_state.md section 7) -/

/-- 10_state.md section 7: a request changes the image only as the table allows: a coil only by `WRCOIL` of an address and
a value that pass, a register only by `WRREG` of an address that passes with `WR_REG_STORE` set; every other cell reads
as before. -/
def Obligations.OnlyWriteHandlersChangeImage : Prop :=
  ∀ (s t : State) (i : Instr), exec i s = .next t →
    t.cfg = s.cfg ∧ t.line = s.line ∧ t.hr.length = s.hr.length ∧ t.coil.length = s.coil.length ∧
    (∀ k, t.coil[k]? ≠ s.coil[k]? →
      ∃ addr value, i = .wrcoil addr value ∧ addr.toNat = k ∧ k < s.cfg.numCoils ∧
        (value = 0xFF00#16 ∨ value = 0x0000#16)) ∧
    (∀ k, t.hr[k]? ≠ s.hr[k]? →
      ∃ addr value, i = .wrreg addr value ∧ addr.toNat = k ∧ k < s.cfg.numRegisters ∧
        s.cfg.wrRegStore = true ∧ t.hr[k]? = some value)

/-- 10_state.md R21: no write to one file is visible in the other. -/
def Obligations.RegistersAndCoilsDoNotAlias : Prop :=
  ∀ (s : State) (addr value : Word),
    (∃ t, exec (.wrcoil addr value) s = .next t ∧ t.hr = s.hr) ∧
    (∃ t, exec (.wrreg addr value) s = .next t ∧ t.coil = s.coil)

/-! ### Sequences of frames (spec/20_memory.md section 7, spec/60_exceptions.md section 4) -/

/-- 20_memory.md sections 1 and 7: the coil switched with `WRCOIL A` is read back with `RDCOIL A+1, 1`, from any state with
the same image and constants. It rests on the spec's decisions that the address A+1 is accepted (92_eei_decisions.md D4, D5;
log 6) and that the seven bits beyond the coil are 0 (D7; log 8), and on the deduction that 0x0000 turns a coil off
(30_encoding.md section 2; log 23). -/
def Obligations.SwitchedCoilReadsBackAtNextAddress : Prop :=
  ∀ (s u : State) (addr : Word) (on : Bool),
    s.cfg.legal = true → s.cfg.backend = .ideal → s.coil.length = s.cfg.numCoils →
    addr.toNat < s.cfg.numCoils →
      ∃ t, exec (.wrcoil addr (if on then 0xFF00#16 else 0x0000#16)) s = .next t ∧
        (sameImage t u →
          ∃ v, exec (.rdcoil (addr + 1#16) 1#16) u = .next v ∧
            v.outcome = some (.respond
              (framed [s.cfg.slaveId, 0x01#8, 0x01#8, if on then 0x01#8 else 0x00#8])))

/-- 20_memory.md section 4, idempotence: with the ideal backend the same request issued again gives the same outcome and
leaves the same image. -/
def Obligations.RepeatedRequestSameOutcome : Prop :=
  ∀ (s t : State) (f : List Byte),
    s.cfg.backend = .ideal → s.coil.length = s.cfg.numCoils → s.req = some f → step s = .next t →
      ∃ u, step { t with req := some f } = .next u ∧ u.outcome = t.outcome ∧ sameImage t u

/-- 60_exceptions.md section 4: after a frame that was dropped (READBACK apart) or answered with an exception, the next
frame is treated exactly as if that one had never arrived. -/
def Obligations.DroppedFrameLeavesNoTrace : Prop :=
  ∀ (s t : State) (f g : List Byte),
    step { s with req := some f } = .next t →
    (t.status = .exceptionFrame ∨ ∃ cause, t.status = .noResponse cause ∧ cause ≠ .readback) →
      step { t with req := some g } = step { s with req := some g }

/-- 30_encoding.md section 1, trailing bytes, an inference the spec marks as its own (92_eei_decisions.md D14; log 22, unsafe
for a device that drops longer frames): two accepted frames with the same first six bytes have the same effect,
whatever bytes lie between them and the trailer. -/
def Obligations.TrailingBytesIgnored : Prop :=
  ∀ (s : State) (f g : List Byte),
    f.length ≤ 256 → g.length ≤ 256 → validate s.cfg f = none → validate s.cfg g = none →
    f.take 6 = g.take 6 →
      step { s with req := some f } = step { s with req := some g }

/-- 42_dispatcher.md section 3: folding the transaction function over a sequence of frames is what the machine does when the
transport delivers those frames one at a time. Delivery through the field `line`, two steps a frame (delivery, transaction),
is the model's (log 13, log 14). The machine shows outcome `j` of the fold after `2 * (j + 1)` steps, and ends in the fold's
state. -/
def Obligations.RunFoldsTransactions : Prop :=
  ∀ (frames : List (List Byte)) (s : State),
    s.cfg.legal = true → s.req = none → s.line = [] → (∀ f ∈ frames, f.length ≤ 256) →
      ∃ u outs, runFrames s frames = .next (u, outs) ∧ outs.length = frames.length ∧
        (∀ o ∈ outs, o ≠ none) ∧
        Host.Core.run Sys2Proof.core (2 * frames.length) { s with line := frames.map .frame } = .next u ∧
        ∀ j, j < frames.length → ∃ v : State,
          Host.Core.run Sys2Proof.core (2 * (j + 1)) { s with line := frames.map .frame } = .next v ∧
          outs[j]? = some v.outcome
end

