-- ==== Sys2Proof/Laws/State.lean ====
section
/-! SUPPORT. One lemma per field per update of the state, so that no proof unfolds a record update. -/

namespace Sys2Proof.Machine

variable (s : State)

@[simp] theorem State.begin_cfg : s.begin.cfg = s.cfg := rfl
@[simp] theorem State.begin_hr : s.begin.hr = s.hr := rfl
@[simp] theorem State.begin_coil : s.begin.coil = s.coil := rfl
@[simp] theorem State.begin_req : s.begin.req = s.req := rfl
@[simp] theorem State.begin_rsp : s.begin.rsp = [] := rfl
@[simp] theorem State.begin_status : s.begin.status = .idle := rfl
@[simp] theorem State.begin_io : s.begin.io = [] := rfl
@[simp] theorem State.begin_line : s.begin.line = s.line := rfl
@[simp] theorem State.begin_draws : s.begin.draws = s.draws := rfl

@[simp] theorem State.writePayload_cfg (p : List Byte) : (s.writePayload p).cfg = s.cfg := rfl
@[simp] theorem State.writePayload_hr (p : List Byte) : (s.writePayload p).hr = s.hr := rfl
@[simp] theorem State.writePayload_coil (p : List Byte) : (s.writePayload p).coil = s.coil := rfl
@[simp] theorem State.writePayload_req (p : List Byte) : (s.writePayload p).req = s.req := rfl
@[simp] theorem State.writePayload_rsp (p : List Byte) : (s.writePayload p).rsp = p := rfl
@[simp] theorem State.writePayload_status (p : List Byte) : (s.writePayload p).status = s.status := rfl
@[simp] theorem State.writePayload_io (p : List Byte) : (s.writePayload p).io = s.io := rfl
@[simp] theorem State.writePayload_line (p : List Byte) : (s.writePayload p).line = s.line := rfl
@[simp] theorem State.writePayload_draws (p : List Byte) : (s.writePayload p).draws = s.draws := rfl

@[simp] theorem State.frameResponse_cfg : s.frameResponse.cfg = s.cfg := rfl
@[simp] theorem State.frameResponse_hr : s.frameResponse.hr = s.hr := rfl
@[simp] theorem State.frameResponse_coil : s.frameResponse.coil = s.coil := rfl
@[simp] theorem State.frameResponse_req : s.frameResponse.req = s.req := rfl
@[simp] theorem State.frameResponse_rsp : s.frameResponse.rsp = framed s.rsp := rfl
@[simp] theorem State.frameResponse_status : s.frameResponse.status = s.status := rfl
@[simp] theorem State.frameResponse_io : s.frameResponse.io = s.io := rfl
@[simp] theorem State.frameResponse_line : s.frameResponse.line = s.line := rfl
@[simp] theorem State.frameResponse_draws : s.frameResponse.draws = s.draws := rfl

@[simp] theorem State.finish_cfg (st : TxStatus) : (s.finish st).cfg = s.cfg := rfl
@[simp] theorem State.finish_hr (st : TxStatus) : (s.finish st).hr = s.hr := rfl
@[simp] theorem State.finish_coil (st : TxStatus) : (s.finish st).coil = s.coil := rfl
@[simp] theorem State.finish_req (st : TxStatus) : (s.finish st).req = none := rfl
@[simp] theorem State.finish_rsp (st : TxStatus) : (s.finish st).rsp = s.rsp := rfl
@[simp] theorem State.finish_status (st : TxStatus) : (s.finish st).status = st := rfl
@[simp] theorem State.finish_io (st : TxStatus) : (s.finish st).io = s.io := rfl
@[simp] theorem State.finish_line (st : TxStatus) : (s.finish st).line = s.line := rfl
@[simp] theorem State.finish_draws (st : TxStatus) : (s.finish st).draws = s.draws := rfl

@[simp] theorem State.respond_cfg (p : List Byte) : (s.respond p).cfg = s.cfg := rfl
@[simp] theorem State.respond_hr (p : List Byte) : (s.respond p).hr = s.hr := rfl
@[simp] theorem State.respond_coil (p : List Byte) : (s.respond p).coil = s.coil := rfl
@[simp] theorem State.respond_req (p : List Byte) : (s.respond p).req = none := rfl
@[simp] theorem State.respond_rsp (p : List Byte) : (s.respond p).rsp = framed p := rfl
@[simp] theorem State.respond_status (p : List Byte) : (s.respond p).status = .respond := rfl
@[simp] theorem State.respond_io (p : List Byte) : (s.respond p).io = s.io := rfl
@[simp] theorem State.respond_line (p : List Byte) : (s.respond p).line = s.line := rfl
@[simp] theorem State.respond_draws (p : List Byte) : (s.respond p).draws = s.draws := rfl

@[simp] theorem State.drop_cfg (c : DropCause) : (s.drop c).cfg = s.cfg := rfl
@[simp] theorem State.drop_hr (c : DropCause) : (s.drop c).hr = s.hr := rfl
@[simp] theorem State.drop_coil (c : DropCause) : (s.drop c).coil = s.coil := rfl
@[simp] theorem State.drop_req (c : DropCause) : (s.drop c).req = none := rfl
@[simp] theorem State.drop_rsp (c : DropCause) : (s.drop c).rsp = [] := rfl
@[simp] theorem State.drop_status (c : DropCause) : (s.drop c).status = .noResponse c := rfl
@[simp] theorem State.drop_io (c : DropCause) : (s.drop c).io = s.io := rfl
@[simp] theorem State.drop_line (c : DropCause) : (s.drop c).line = s.line := rfl
@[simp] theorem State.drop_draws (c : DropCause) : (s.drop c).draws = s.draws := rfl

@[simp] theorem State.raiseIllegalFunction_cfg (fc : Byte) : (s.raiseIllegalFunction fc).cfg = s.cfg := rfl
@[simp] theorem State.raiseIllegalFunction_hr (fc : Byte) : (s.raiseIllegalFunction fc).hr = s.hr := rfl
@[simp] theorem State.raiseIllegalFunction_coil (fc : Byte) : (s.raiseIllegalFunction fc).coil = s.coil := rfl
@[simp] theorem State.raiseIllegalFunction_req (fc : Byte) : (s.raiseIllegalFunction fc).req = none := rfl
@[simp] theorem State.raiseIllegalFunction_rsp (fc : Byte) : (s.raiseIllegalFunction fc).rsp = framed [s.cfg.slaveId, fc ||| 0x80#8, Config.excCode] := rfl
@[simp] theorem State.raiseIllegalFunction_status (fc : Byte) : (s.raiseIllegalFunction fc).status = .exceptionFrame := rfl
@[simp] theorem State.raiseIllegalFunction_io (fc : Byte) : (s.raiseIllegalFunction fc).io = s.io := rfl
@[simp] theorem State.raiseIllegalFunction_line (fc : Byte) : (s.raiseIllegalFunction fc).line = s.line := rfl
@[simp] theorem State.raiseIllegalFunction_draws (fc : Byte) : (s.raiseIllegalFunction fc).draws = s.draws := rfl

@[simp] theorem State.echo_cfg : s.echo.cfg = s.cfg := rfl
@[simp] theorem State.echo_hr : s.echo.hr = s.hr := rfl
@[simp] theorem State.echo_coil : s.echo.coil = s.coil := rfl
@[simp] theorem State.echo_req : s.echo.req = none := rfl
@[simp] theorem State.echo_rsp : s.echo.rsp = framed (s.reqBytes.take 6) := rfl
@[simp] theorem State.echo_status : s.echo.status = .respond := rfl
@[simp] theorem State.echo_io : s.echo.io = s.io := rfl
@[simp] theorem State.echo_line : s.echo.line = s.line := rfl
@[simp] theorem State.echo_draws : s.echo.draws = s.draws := rfl

@[simp] theorem State.writeHr_cfg (i : Nat) (v : Word) : (s.writeHr i v).cfg = s.cfg := rfl
@[simp] theorem State.writeHr_hr (i : Nat) (v : Word) : (s.writeHr i v).hr = s.hr.set i v := rfl
@[simp] theorem State.writeHr_coil (i : Nat) (v : Word) : (s.writeHr i v).coil = s.coil := rfl
@[simp] theorem State.writeHr_req (i : Nat) (v : Word) : (s.writeHr i v).req = s.req := rfl
@[simp] theorem State.writeHr_rsp (i : Nat) (v : Word) : (s.writeHr i v).rsp = s.rsp := rfl
@[simp] theorem State.writeHr_status (i : Nat) (v : Word) : (s.writeHr i v).status = s.status := rfl
@[simp] theorem State.writeHr_io (i : Nat) (v : Word) : (s.writeHr i v).io = s.io := rfl
@[simp] theorem State.writeHr_line (i : Nat) (v : Word) : (s.writeHr i v).line = s.line := rfl
@[simp] theorem State.writeHr_draws (i : Nat) (v : Word) : (s.writeHr i v).draws = s.draws := rfl

@[simp] theorem State.deliver_cfg (b : List Byte) (rest : List Event) : (s.deliver b rest).cfg = s.cfg := rfl
@[simp] theorem State.deliver_hr (b : List Byte) (rest : List Event) : (s.deliver b rest).hr = s.hr := rfl
@[simp] theorem State.deliver_coil (b : List Byte) (rest : List Event) : (s.deliver b rest).coil = s.coil := rfl
@[simp] theorem State.deliver_req (b : List Byte) (rest : List Event) : (s.deliver b rest).req = some b := rfl
@[simp] theorem State.deliver_rsp (b : List Byte) (rest : List Event) : (s.deliver b rest).rsp = [] := rfl
@[simp] theorem State.deliver_status (b : List Byte) (rest : List Event) : (s.deliver b rest).status = .idle := rfl
@[simp] theorem State.deliver_io (b : List Byte) (rest : List Event) : (s.deliver b rest).io = [] := rfl
@[simp] theorem State.deliver_line (b : List Byte) (rest : List Event) : (s.deliver b rest).line = rest := rfl
@[simp] theorem State.deliver_draws (b : List Byte) (rest : List Event) : (s.deliver b rest).draws = s.draws := rfl

@[simp] theorem State.applyReset_cfg (rest : List Event) : (s.applyReset rest).cfg = s.cfg := rfl
@[simp] theorem State.applyReset_hr (rest : List Event) : (s.applyReset rest).hr = s.cfg.regReset := rfl
@[simp] theorem State.applyReset_coil (rest : List Event) : (s.applyReset rest).coil = s.cfg.coilReset := rfl
@[simp] theorem State.applyReset_req (rest : List Event) : (s.applyReset rest).req = none := rfl
@[simp] theorem State.applyReset_rsp (rest : List Event) : (s.applyReset rest).rsp = [] := rfl
@[simp] theorem State.applyReset_status (rest : List Event) : (s.applyReset rest).status = .idle := rfl
@[simp] theorem State.applyReset_io (rest : List Event) : (s.applyReset rest).io = [] := rfl
@[simp] theorem State.applyReset_line (rest : List Event) : (s.applyReset rest).line = rest := rfl
@[simp] theorem State.applyReset_draws (rest : List Event) : (s.applyReset rest).draws = s.draws := rfl

@[simp] theorem State.coilWrite_cfg (i : Nat) (b : Bool) : (s.coilWrite i b).cfg = s.cfg := by
  unfold State.coilWrite; split <;> rfl
@[simp] theorem State.coilWrite_hr (i : Nat) (b : Bool) : (s.coilWrite i b).hr = s.hr := by
  unfold State.coilWrite; split <;> rfl
@[simp] theorem State.coilWrite_req (i : Nat) (b : Bool) : (s.coilWrite i b).req = s.req := by
  unfold State.coilWrite; split <;> rfl
@[simp] theorem State.coilWrite_rsp (i : Nat) (b : Bool) : (s.coilWrite i b).rsp = s.rsp := by
  unfold State.coilWrite; split <;> rfl
@[simp] theorem State.coilWrite_status (i : Nat) (b : Bool) : (s.coilWrite i b).status = s.status := by
  unfold State.coilWrite; split <;> rfl
@[simp] theorem State.coilWrite_io (i : Nat) (b : Bool) : (s.coilWrite i b).io = s.io ++ [.write i b] := by
  unfold State.coilWrite; split <;> rfl
@[simp] theorem State.coilWrite_line (i : Nat) (b : Bool) : (s.coilWrite i b).line = s.line := by
  unfold State.coilWrite; split <;> rfl

@[simp] theorem State.coilRead_cfg (i : Nat) : (s.coilRead i).cfg = s.cfg := by
  unfold State.coilRead; split <;> rfl
@[simp] theorem State.coilRead_hr (i : Nat) : (s.coilRead i).hr = s.hr := by
  unfold State.coilRead; split <;> rfl
@[simp] theorem State.coilRead_coil (i : Nat) : (s.coilRead i).coil = s.coil := by
  unfold State.coilRead; split <;> rfl
@[simp] theorem State.coilRead_req (i : Nat) : (s.coilRead i).req = s.req := by
  unfold State.coilRead; split <;> rfl
@[simp] theorem State.coilRead_rsp (i : Nat) : (s.coilRead i).rsp = s.rsp := by
  unfold State.coilRead; split <;> rfl
@[simp] theorem State.coilRead_status (i : Nat) : (s.coilRead i).status = s.status := by
  unfold State.coilRead; split <;> rfl
@[simp] theorem State.coilRead_io (i : Nat) : (s.coilRead i).io = s.io ++ [.read i] := by
  unfold State.coilRead; split <;> rfl
@[simp] theorem State.coilRead_line (i : Nat) : (s.coilRead i).line = s.line := by
  unfold State.coilRead; split <;> rfl

@[simp] theorem State.coilRead_draws (i : Nat) :
    (s.coilRead i).draws = s.draws + (if s.cfg.backend = .oracle then 1 else 0) := by
  unfold State.coilRead; split <;> simp_all

@[simp] theorem State.coilWrite_draws (i : Nat) (b : Bool) :
    (s.coilWrite i b).draws = s.draws + (if s.cfg.backend = .oracle then 1 else 0) := by
  unfold State.coilWrite; split <;> simp_all

@[simp] theorem State.coilWrite_coil (i : Nat) (b : Bool) :
    (s.coilWrite i b).coil =
      s.coil.set i (if s.cfg.backend = .oracle then Config.freeCoilAfterWrite s.draws else b) := by
  unfold State.coilWrite; split <;> simp_all

@[simp] theorem State.begin_reqBytes : s.begin.reqBytes = s.reqBytes := rfl

@[simp] theorem State.writeHr_reqBytes (i : Nat) (v : Word) : (s.writeHr i v).reqBytes = s.reqBytes := rfl

@[simp] theorem State.coilRead_reqBytes (i : Nat) : (s.coilRead i).reqBytes = s.reqBytes := by
  simp [State.reqBytes]

@[simp] theorem State.coilWrite_reqBytes (i : Nat) (b : Bool) : (s.coilWrite i b).reqBytes = s.reqBytes := by
  simp [State.reqBytes]

@[simp] theorem State.begin_begin : s.begin.begin = s.begin := rfl

end Sys2Proof.Machine
end

