-- ==== Sys2Proof/Laws/Ops.lean ====
section
/-! SUPPORT. One lemma per shared operation and per meaning that says once all it can do; later proofs cite these. -/

namespace Sys2Proof.Machine

variable (s : State)

/-! ### Buffers and the codec -/

@[simp] theorem framed_length (p : List Byte) : (framed p).length = p.length + 2 := by simp [framed]

theorem crc16_append (data : List Byte) (b : Byte) : crc16 (data ++ [b]) = crcByte (crc16 data) b := by
  simp [crc16]

@[simp] theorem packCoils_length (coils : List Bool) :
    (packCoils coils).length = coilByteCount coils.length := by simp [packCoils]

@[simp] theorem be16Bytes_length (v : Word) : (be16Bytes v).length = 2 := rfl

@[simp] theorem State.readHrs_length (start count : Nat) : (s.readHrs start count).length = count := by
  simp [State.readHrs]

theorem flatMap_be16Bytes_length (vs : List Word) : (vs.flatMap be16Bytes).length = 2 * vs.length := by
  induction vs with
  | nil => rfl
  | cons v vs ih => simp [ih]; omega

/-! ### Coil reads -/

@[simp] theorem State.coilAnswers_length (i n : Nat) : (s.coilAnswers i n).length = n := by
  induction n generalizing s i with
  | zero => rfl
  | succ n ih => simp [State.coilAnswers, ih]

/-- All that a sequence of coil reads does: the calls are made, ascending, each once; an oracle draws one free value for
each; nothing else changes. -/
theorem State.coilReads_eq (i n : Nat) :
    s.coilReads i n =
      { s with
        io := s.io ++ (List.range n).map fun k => .read (i + k)
        draws := s.draws + (if s.cfg.backend = .oracle then n else 0) } := by
  induction n generalizing s i with
  | zero => simp [State.coilReads]
  | succ n ih =>
    rw [State.coilReads, ih]
    cases hb : s.cfg.backend <;>
      simp [State.coilRead, hb, List.range_succ_eq_map, Nat.add_comm, Nat.add_left_comm, Function.comp_def]

@[simp] theorem State.coilReads_cfg (i n : Nat) : (s.coilReads i n).cfg = s.cfg := by rw [s.coilReads_eq]
@[simp] theorem State.coilReads_hr (i n : Nat) : (s.coilReads i n).hr = s.hr := by rw [s.coilReads_eq]
@[simp] theorem State.coilReads_coil (i n : Nat) : (s.coilReads i n).coil = s.coil := by rw [s.coilReads_eq]
@[simp] theorem State.coilReads_req (i n : Nat) : (s.coilReads i n).req = s.req := by rw [s.coilReads_eq]
@[simp] theorem State.coilReads_line (i n : Nat) : (s.coilReads i n).line = s.line := by rw [s.coilReads_eq]

/-- With the ideal backend the answers are the coils themselves. -/
theorem State.coilAnswers_ideal (h : s.cfg.backend = .ideal) (i n : Nat) :
    s.coilAnswers i n = (List.range n).map fun k => s.coil.getD (i + k) false := by
  induction n generalizing s i with
  | zero => rfl
  | succ n ih =>
    rw [State.coilAnswers, ih _ (by simpa using h)]
    simp [State.coilAnswer, h, List.range_succ_eq_map, Nat.add_comm, Nat.add_left_comm, Function.comp_def]

/-- With an oracle backend the answers are the free values drawn, in order. -/
theorem State.coilAnswers_oracle (h : s.cfg.backend = .oracle) (i n : Nat) :
    s.coilAnswers i n = (List.range n).map fun k => Config.freeCoilRead (s.draws + k) := by
  induction n generalizing s i with
  | zero => rfl
  | succ n ih =>
    rw [State.coilAnswers, ih _ (by simpa using h)]
    simp [State.coilAnswer, h, List.range_succ_eq_map, Nat.add_comm, Nat.add_left_comm, Function.comp_def]

/-- The answers depend on the constants, the coils and the free values already drawn, and on nothing else. -/
theorem State.coilAnswers_congr {s t : State} (hcfg : t.cfg = s.cfg) (hcoil : t.coil = s.coil)
    (hdraws : t.draws = s.draws) (i n : Nat) : t.coilAnswers i n = s.coilAnswers i n := by
  cases hb : s.cfg.backend
  · rw [State.coilAnswers_ideal _ hb, State.coilAnswers_ideal _ (hcfg ▸ hb), hcoil]
  · rw [State.coilAnswers_oracle _ hb, State.coilAnswers_oracle _ (hcfg ▸ hb), hdraws]

/-! ### What each meaning can do -/

theorem State.drop_eq (c : DropCause) : s.drop c = dropped s c := rfl

/-- Read Coils drops the frame with COUNT or RANGE, or reads and answers. -/
theorem execRdcoil_cases {start count : Word} {s t : State} (h : execRdcoil start count s = .next t) :
    ((count.toNat < 1 ∨ count.toNat > 2000) ∧ t = dropped s .count) ∨
    ((start.toNat < 1 ∨ (start.toNat - 1) + count.toNat > s.cfg.numCoils) ∧ t = dropped s .range) ∨
    (1 ≤ count.toNat ∧ count.toNat ≤ 2000 ∧ 1 ≤ start.toNat ∧
      (start.toNat - 1) + count.toNat ≤ s.cfg.numCoils ∧
      t = (s.coilReads (start.toNat - 1) count.toNat).respond
        ([s.cfg.slaveId, 0x01#8, BitVec.ofNat 8 (coilByteCount count.toNat)] ++
          packCoils (s.coilAnswers (start.toNat - 1) count.toNat))) := by
  unfold execRdcoil at h
  split at h
  · rename_i hc; cases h; exact .inl ⟨hc, rfl⟩
  · rename_i hc
    split at h
    · rename_i hr; cases h; exact .inr (.inl ⟨hr, rfl⟩)
    · rename_i hr
      cases h
      simp only [Config.coilCountMax] at hc
      exact .inr (.inr ⟨by omega, by omega, by omega, by omega, rfl⟩)

/-- Read Holding Registers drops the frame with RANGE or answers. -/
theorem execRdhr_cases {start count : Word} {s t : State} (h : execRdhr start count s = .next t) :
    (start.toNat + count.toNat > s.cfg.numRegisters ∧ t = dropped s .range) ∨
    (start.toNat + count.toNat ≤ s.cfg.numRegisters ∧
      t = s.respond ([s.cfg.slaveId, 0x03#8, BitVec.ofNat 8 (2 * count.toNat)] ++
        (s.readHrs start.toNat count.toNat).flatMap be16Bytes)) := by
  unfold execRdhr at h
  split at h
  · rename_i hr; cases h; exact .inl ⟨hr, rfl⟩
  · rename_i hr; cases h; exact .inr ⟨by omega, rfl⟩

/-- Write Single Coil drops the frame with VALUE or RANGE before the write, or writes, reads back, and answers or drops it
with READBACK. -/
theorem execWrcoil_cases {addr value : Word} {s t : State} (h : execWrcoil addr value s = .next t) :
    (decodeCoilValue value = none ∧ t = dropped s .value) ∨
    (s.cfg.numCoils ≤ addr.toNat ∧ t = dropped s .range) ∨
    (∃ b, decodeCoilValue value = some b ∧ addr.toNat < s.cfg.numCoils ∧
      (s.coilWrite addr.toNat b).coilAnswer addr.toNat = b ∧
      t = ((s.coilWrite addr.toNat b).coilRead addr.toNat).echo) ∨
    (∃ b, decodeCoilValue value = some b ∧ addr.toNat < s.cfg.numCoils ∧
      (s.coilWrite addr.toNat b).coilAnswer addr.toNat ≠ b ∧
      t = dropped ((s.coilWrite addr.toNat b).coilRead addr.toNat) .readback) := by
  unfold execWrcoil at h
  split at h
  · rename_i hv; cases h; exact .inl ⟨hv, rfl⟩
  · rename_i b hv
    split at h
    · rename_i hr; cases h; exact .inr (.inl ⟨hr, rfl⟩)
    · rename_i hr
      split at h
      · rename_i hb; cases h; exact .inr (.inr (.inl ⟨b, hv, by omega, hb, rfl⟩))
      · rename_i hb; cases h; exact .inr (.inr (.inr ⟨b, hv, by omega, hb, rfl⟩))

/-- Write Single Register drops the frame with RANGE, or stores when the configuration says so, and answers. -/
theorem execWrreg_cases {addr value : Word} {s t : State} (h : execWrreg addr value s = .next t) :
    (s.cfg.numRegisters ≤ addr.toNat ∧ t = dropped s .range) ∨
    (addr.toNat < s.cfg.numRegisters ∧ s.cfg.wrRegStore = true ∧ t = (s.writeHr addr.toNat value).echo) ∨
    (addr.toNat < s.cfg.numRegisters ∧ s.cfg.wrRegStore = false ∧ t = s.echo) := by
  unfold execWrreg at h
  split at h
  · rename_i hr; cases h; exact .inl ⟨hr, rfl⟩
  · rename_i hr
    split at h
    · rename_i hs; cases h; exact .inr (.inl ⟨by omega, hs, rfl⟩)
    · rename_i hs; cases h; exact .inr (.inr ⟨by omega, by simpa using hs, rfl⟩)

/-- An unsupported function code always takes the exception. -/
theorem execIllfc_cases {fc : Byte} {s t : State} (h : execIllfc fc s = .next t) :
    t = s.raiseIllegalFunction fc := by
  unfold execIllfc at h; cases h; rfl

/-! ### What the step can do -/

/-- A transaction is the drop of a rejected frame or the meaning of the decoded request. -/
theorem transact_cases {frame : List Byte} {s t : State} (h : transact frame s = .next t) :
    (∃ cause, decode s.cfg frame = .error cause ∧ t = dropped s.begin cause) ∨
    (∃ i, decode s.cfg frame = .ok i ∧ exec i s.begin = .next t) := by
  unfold transact at h
  split at h
  · rename_i c hd; cases h; exact .inl ⟨c, hd, rfl⟩
  · rename_i i hd; exact .inr ⟨i, hd, h⟩

/-- A step to a next state: a transaction of the frame presented, or an event of the outside. -/
theorem step_cases {s t : State} (h : step s = .next t) :
    s.cfg.legal = true ∧
    ((∃ frame, s.req = some frame ∧ frameFits frame = true ∧ transact frame s = .next t) ∨
      (s.req = none ∧ s.line = [] ∧ t = s) ∨
      (∃ b rest, s.req = none ∧ s.line = .frame b :: rest ∧ frameFits b = true ∧ t = s.deliver b rest) ∨
      (∃ b rest, s.req = none ∧ s.line = .cutFrame b :: rest ∧ frameFits b = true ∧ t = s.applyReset rest) ∨
      (∃ rest, s.req = none ∧ s.line = .reset :: rest ∧ t = s.applyReset rest)) := by
  unfold step at h
  split at h
  · rename_i hl
    refine ⟨hl, ?_⟩
    split at h
    · rename_i f hf
      unfold process at h
      split at h
      · rename_i hfit; exact .inl ⟨f, hf, hfit, h⟩
      · cases h
    · rename_i hn
      unfold takeEvent at h
      split at h
      · rename_i he; cases h; exact .inr (.inl ⟨hn, he, rfl⟩)
      · rename_i b rest he
        split at h
        · rename_i hb; cases h; exact .inr (.inr (.inl ⟨b, rest, hn, he, hb, rfl⟩))
        · cases h
      · rename_i b rest he
        split at h
        · rename_i hb; cases h; exact .inr (.inr (.inr (.inl ⟨b, rest, hn, he, hb, rfl⟩)))
        · cases h
      · rename_i rest he; cases h; exact .inr (.inr (.inr (.inr ⟨rest, hn, he, rfl⟩)))
  · cases h

/-! ### The decoder -/

/-- What the decoder answers, by the validator's answer. -/
theorem decode_eq_ok_iff {cfg : Config} {f : List Byte} {i : Instr} :
    decode cfg f = .ok i ↔ validate cfg f = none ∧ i = dispatchFrame f := by
  unfold decode
  split <;> rename_i hv <;> simp [hv, eq_comm]

theorem decode_eq_error_iff {cfg : Config} {f : List Byte} {c : DropCause} :
    decode cfg f = .error c ↔ validate cfg f = some c := by
  unfold decode; split <;> simp_all

theorem verifyCrc_eq_true_iff {data : List Byte} {h l : Byte} :
    verifyCrc data h l = true ↔ crc16 data = be16 h l := by
  unfold verifyCrc; rw [decide_eq_true_eq]

theorem requestCrcOk_iff {cfg : Config} {f : List Byte} : requestCrcOk cfg f = true ↔
    crc16 (f.take (f.length - 2)) = be16 (trailerBytes cfg f).1 (trailerBytes cfg f).2 := by
  unfold requestCrcOk; exact verifyCrc_eq_true_iff

/-- The frames the validator accepts, in the words of its three checks. -/
theorem validate_eq_none_iff {cfg : Config} {f : List Byte} : validate cfg f = none ↔
    8 ≤ f.length ∧ byteAt f 0 = cfg.slaveId ∧ requestCrcOk cfg f = true := by
  have hm : Config.minFrame = 8 := rfl
  unfold validate
  split
  · simp; omega
  · rename_i hl
    have h8 : 8 ≤ f.length := by omega
    split
    · simp_all
    · split <;> simp_all

/-- An accepted frame has at least eight bytes. -/
theorem validate_none_length {cfg : Config} {f : List Byte} (h : validate cfg f = none) : 8 ≤ f.length :=
  (validate_eq_none_iff.1 h).1

/-! ### Every memory operation keeps the form of the memory -/

theorem State.memoryWf_iff : s.memoryWf = true ↔
    s.hr.length = s.cfg.numRegisters ∧ s.coil.length = s.cfg.numCoils ∧
    s.reqBytes.length ≤ 256 ∧ s.rsp.length ≤ 255 := by
  simp only [State.memoryWf, Bool.and_eq_true, decide_eq_true_eq, and_assoc]

theorem State.begin_memoryWf (h : s.memoryWf = true) : s.begin.memoryWf = true := by
  rw [State.memoryWf_iff] at *; simp_all [State.reqBytes]

theorem State.writeHr_memoryWf (h : s.memoryWf = true) (i : Nat) (v : Word) :
    (s.writeHr i v).memoryWf = true := by
  rw [State.memoryWf_iff] at *; simp_all [State.reqBytes]

theorem State.coilWrite_memoryWf (h : s.memoryWf = true) (i : Nat) (b : Bool) :
    (s.coilWrite i b).memoryWf = true := by
  rw [State.memoryWf_iff] at *; simp_all

theorem State.coilRead_memoryWf (h : s.memoryWf = true) (i : Nat) :
    (s.coilRead i).memoryWf = true := by
  rw [State.memoryWf_iff] at *; simp_all

theorem State.coilReads_memoryWf (h : s.memoryWf = true) (i n : Nat) :
    (s.coilReads i n).memoryWf = true := by
  induction n generalizing s i with
  | zero => exact h
  | succ n ih => exact ih _ (s.coilRead_memoryWf h i) _

theorem State.respond_memoryWf (h : s.memoryWf = true) {p : List Byte} (hp : p.length ≤ 253) :
    (s.respond p).memoryWf = true := by
  rw [State.memoryWf_iff] at *; simp_all [State.reqBytes]

theorem State.echo_memoryWf (h : s.memoryWf = true) : s.echo.memoryWf = true :=
  s.respond_memoryWf h (by simp)

theorem State.drop_memoryWf (h : s.memoryWf = true) (c : DropCause) : (s.drop c).memoryWf = true := by
  rw [State.memoryWf_iff] at *; simp_all [State.reqBytes]

theorem State.raiseIllegalFunction_memoryWf (h : s.memoryWf = true) (fc : Byte) :
    (s.raiseIllegalFunction fc).memoryWf = true := by
  rw [State.memoryWf_iff] at *; simp_all [State.reqBytes]

theorem frameFits_iff {b : List Byte} : frameFits b = true ↔ b.length ≤ 256 := by
  simp only [frameFits, decide_eq_true_eq]

theorem State.deliver_memoryWf (h : s.memoryWf = true) {b : List Byte} (hb : frameFits b = true)
    (rest : List Event) : (s.deliver b rest).memoryWf = true := by
  rw [State.memoryWf_iff] at *; simp_all [State.reqBytes, frameFits_iff]

theorem State.resetOf_memoryWf {cfg : Config} (h : cfg.legal = true) : (State.resetOf cfg).memoryWf = true := by
  simp only [Config.legal, Bool.and_eq_true, decide_eq_true_eq] at h
  rw [State.memoryWf_iff]; simp_all [State.resetOf, State.reqBytes]

end Sys2Proof.Machine
end

