-- ==== Sys2Proof/Laws/PerInstr.lean ====
section
/-! SUPPORT. Statements about every request kind as syntax, one lemma per constructor of Instr. -/

namespace Sys2Proof.Laws

open Sys2Proof

/-- The frame of a request is 8 bytes and its padding (spec/30_encoding.md rules R51, R55). -/
def EncodeLength.Statement (i : Instr) : Prop :=
  ∀ (cfg : Config) (pad : List Byte), (encodePadded cfg i pad).length = 8 + pad.length

theorem withTrailer_length (cfg : Config) (covered : List Byte) :
    (withTrailer cfg covered).length = covered.length + 2 := by
  unfold withTrailer; split <;> simp

theorem encodePadded_length (cfg : Config) (i : Instr) (pad : List Byte) (h : i.args.length = 4) :
    (encodePadded cfg i pad).length = 8 + pad.length := by
  unfold encodePadded
  rw [withTrailer_length]
  simp [h]; omega

theorem EncodeLength.rdcoil (start count : Word) : EncodeLength.Statement (.rdcoil start count) :=
  fun cfg pad => encodePadded_length cfg _ pad rfl
theorem EncodeLength.rdhr (start count : Word) : EncodeLength.Statement (.rdhr start count) :=
  fun cfg pad => encodePadded_length cfg _ pad rfl
theorem EncodeLength.wrcoil (addr value : Word) : EncodeLength.Statement (.wrcoil addr value) :=
  fun cfg pad => encodePadded_length cfg _ pad rfl
theorem EncodeLength.wrreg (addr value : Word) : EncodeLength.Statement (.wrreg addr value) :=
  fun cfg pad => encodePadded_length cfg _ pad rfl
theorem EncodeLength.illfc (fc : Byte) : EncodeLength.Statement (.illfc fc) :=
  fun cfg pad => encodePadded_length cfg _ pad rfl

end Sys2Proof.Laws
end

