-- ==== Sys2Proof/Machine/Ports.lean ====
section
/-! DEFINITION. The signal-level view of spec/60_exceptions.md rule R155, as functions of the state: what the block's output
ports show between steps. It is the spec's own suggestion, no rule depends on it, and neither does the step (log 24).
Clock and reset have no function here: a step is a whole transaction, and reset is an event of `line`. -/

namespace Sys2Proof.Machine

/-- `cfg_slave_id` -/
def State.portCfgSlaveId (s : State) : Byte := s.cfg.slaveId

/-- `req_valid`: a complete frame is presented. -/
def State.portReqValid (s : State) : Bool := s.req.isSome

/-- `req_len`: `L`, 9 bits. -/
def State.portReqLen (s : State) : BitVec 9 := BitVec.ofNat 9 s.reqBytes.length

/-- `req_data`, byte `i` below `L`; a byte at or beyond `L` has no value (spec/10_state.md rule R17). -/
def State.portReqData (s : State) (i : Nat) : Option Byte := s.reqBytes[i]?

/-- `req_ready`: the block is idle and can take a frame. -/
def State.portReqReady (s : State) : Bool := s.req.isNone

/-- `done`: a transaction has its outcome. -/
def State.portDone (s : State) : Bool := s.outcome.isSome

/-- `outcome`: 0 `NoResponse`, 1 `Respond`, 2 `ExceptionFrame`; meaningful with `done`. -/
def State.portOutcome (s : State) : BitVec 2 :=
  match s.outcome with
  | none => 0#2
  | some (.noResponse _) => 0#2
  | some (.respond _) => 1#2
  | some (.exceptionFrame _) => 2#2

/-- `rsp_len`: `n`, 0 when `NoResponse`. -/
def State.portRspLen (s : State) : Byte := BitVec.ofNat 8 s.rsp.length

/-- `rsp_data`, byte `i` below `n`. -/
def State.portRspData (s : State) (i : Nat) : Option Byte := s.rsp[i]?

/-- `coil_wr_en`, `coil_wr_idx`, `coil_wr_val`: the writes of the transaction, in order. -/
def State.portCoilWrites (s : State) : List (Word × Bool) :=
  s.io.filterMap fun
    | .write i b => some (BitVec.ofNat 16 i, b)
    | .read _ => none

/-- `coil_rd_en`, `coil_rd_idx`: the reads of the transaction, in order. -/
def State.portCoilReads (s : State) : List Word :=
  s.io.filterMap fun
    | .write _ _ => none
    | .read i => some (BitVec.ofNat 16 i)

end Sys2Proof.Machine
end

