-- ==== Sys2Proof/Tests/Slice0.lean ====
section
/-! SUPPORT. Small tests. Expected values are from spec/95_test_vectors.md (the section or vector is named at each) or
read off the spec's own tables. -/

namespace Sys2Proof.Tests

open Sys2Proof.Machine

set_option Elab.async false

/-- The reference configuration with coils `101100`, no frame presented (95 section 2.4). -/
def image (coils : List Bool) : State := { State.reset with coil := coils }

/-- Coils `101100`. -/
def coils101100 : List Bool := [true, false, true, true, false, false]

/-- What a transaction shows: its outcome, the coils, the registers, the backend calls. -/
def shows (o : Host.Outcome State Fault Refusal) :
    Option (Option TxOutcome × List Bool × List Word × List IoCall) :=
  match o with
  | .next t => some (t.outcome, t.coil, t.hr, t.io)
  | _ => none

/-- The outcome of the transaction of a frame from the given state. -/
def reply (s : State) (f : List Byte) : Option TxOutcome :=
  match step { s with req := some f } with
  | .next t => t.outcome
  | _ => none

/-- The coils after the transaction. -/
def coilsAfter (s : State) (f : List Byte) : Option (List Bool) :=
  match step { s with req := some f } with
  | .next t => some t.coil
  | _ => none

/-- The registers after the transaction. -/
def hrAfter (s : State) (f : List Byte) : Option (List Word) :=
  match step { s with req := some f } with
  | .next t => some t.hr
  | _ => none

/-! ### WellFormed: each check refuses an ill-formed term -/

theorem test_wf_illfc_supported : (Instr.illfc 0x05#8).wf = false := by decide
theorem test_wf_illfc_unsupported : (Instr.illfc 0x99#8).wf = true := by decide
theorem test_config_legal : Config.reference.legal = true := by decide
theorem test_config_no_coils : ({ Config.reference with numCoils := 0, coilReset := [] }).legal = false := by decide
theorem test_config_many_coils (cfg : Config) (h : cfg.numCoils = 65536) : cfg.legal = false := by
  simp [Config.legal, h]
theorem test_config_no_registers : ({ Config.reference with numRegisters := 0, regReset := [] }).legal = false := by decide
theorem test_config_many_registers :
    ({ Config.reference with numRegisters := 126, regReset := List.replicate 126 0#16 }).legal = false := by decide
theorem test_config_reg_reset_size : ({ Config.reference with regReset := [] }).legal = false := by decide
theorem test_config_coil_reset_size : ({ Config.reference with coilReset := [true] }).legal = false := by decide
theorem test_frame_too_long : frameFits (List.replicate 257 0x55#8) = false := by decide +kernel

/-! ### CRC codec (95 section 2.1) -/

theorem test_crc_v1 : crc16 [0x01#8, 0x03#8, 0x00#8, 0x00#8, 0x00#8, 0x0A#8] = 0xCDC5#16 := by decide +kernel
theorem test_crc_v2 : crc16 [] = 0xFFFF#16 := by decide
theorem test_crc_v4 :
    crc16 [0x31#8, 0x32#8, 0x33#8, 0x34#8, 0x35#8, 0x36#8, 0x37#8, 0x38#8, 0x39#8] = 0x4B37#16 := by decide +kernel
theorem test_crc_v5_v6 : crc16 [0x00#8] = 0x40BF#16 ∧ crc16 [0xFF#8] = 0x00FF#16 := by decide +kernel
theorem test_crc_serial_v3 : crcSerial [0x01#8] = 0x807E#16 := by decide +kernel
theorem test_verify_order :
    verifyCrc [0x01#8, 0x03#8, 0x00#8, 0x00#8, 0x00#8, 0x0A#8] 0xCD#8 0xC5#8 = true ∧
    verifyCrc [0x01#8, 0x03#8, 0x00#8, 0x00#8, 0x00#8, 0x0A#8] 0xC5#8 0xCD#8 = false := by decide +kernel

/-! ### Decoding of frames written out byte by byte (95 sections 2.2 to 2.7), one family each -/

theorem test_decode_rdcoil :
    decode Config.reference [0x01#8, 0x01#8, 0x00#8, 0x02#8, 0x00#8, 0x05#8, 0xC9#8, 0x5D#8] =
      .ok (.rdcoil 2#16 5#16) := by decide +kernel
theorem test_decode_rdhr :
    decode Config.reference [0x01#8, 0x03#8, 0x00#8, 0x02#8, 0x00#8, 0x03#8, 0x0B#8, 0xA4#8] =
      .ok (.rdhr 2#16 3#16) := by decide +kernel
theorem test_decode_wrcoil :
    decode Config.reference [0x01#8, 0x05#8, 0x00#8, 0x01#8, 0xFF#8, 0x00#8, 0xFA#8, 0xDD#8] =
      .ok (.wrcoil 1#16 0xFF00#16) := by decide +kernel
theorem test_decode_wrreg :
    decode Config.reference [0x01#8, 0x06#8, 0x00#8, 0x03#8, 0xAB#8, 0xCD#8, 0x6F#8, 0xC7#8] =
      .ok (.wrreg 3#16 0xABCD#16) := by decide +kernel
theorem test_decode_illfc :
    decode Config.reference [0x01#8, 0x99#8, 0x00#8, 0x00#8, 0x00#8, 0x00#8, 0xD6#8, 0x1D#8] =
      .ok (.illfc 0x99#8) := by decide +kernel
theorem test_decode_long :
    decode Config.reference [0x01#8, 0x03#8, 0x00#8, 0x00#8, 0x00#8, 0x01#8, 0xAA#8, 0xBB#8, 0xD4#8, 0xDD#8] =
      .ok (.rdhr 0#16 1#16) := by decide +kernel
theorem test_decode_short : decode Config.reference [0x01#8, 0x99#8, 0x4A#8, 0xC0#8] = .error .short := by
  decide +kernel
theorem test_decode_other_slave :
    decode Config.reference [0x02#8, 0x03#8, 0x00#8, 0x00#8, 0x00#8, 0x0A#8, 0x00#8, 0x00#8] = .error .addr := by
  decide +kernel
theorem test_decode_low_first :
    decode Config.reference [0x01#8, 0x03#8, 0x00#8, 0x00#8, 0x00#8, 0x0A#8, 0xC5#8, 0xCD#8] = .error .crc := by
  decide +kernel
theorem test_decode_low_first_other_setting :
    decode { Config.reference with reqCrcMsbFirst := false }
      [0x01#8, 0x03#8, 0x00#8, 0x00#8, 0x00#8, 0x0A#8, 0xC5#8, 0xCD#8] = .ok (.rdhr 0#16 10#16) := by decide +kernel
theorem test_encode_rdcoil :
    encode Config.reference (.rdcoil 2#16 5#16) =
      [0x01#8, 0x01#8, 0x00#8, 0x02#8, 0x00#8, 0x05#8, 0xC9#8, 0x5D#8] := by decide +kernel
theorem test_table_words :
    (decodeTableWord 8 0x01, decodeTableWord 8 0x03, decodeTableWord 8 0x05, decodeTableWord 8 0x06,
      decodeTableWord 8 0x80, decodeTableWord 48 0x0300) =
    (some (.rdcoil 0#16 0#16), some (.rdhr 0#16 0#16), some (.wrcoil 0#16 0#16), some (.wrreg 0#16 0#16),
      some (.illfc 0x80#8), some (.rdhr 0#16 0#16)) := by decide +kernel
theorem test_fetch_word_runs :
    shows (step (State.reset.withFetchWord 8 0x99)) =
      some (some (.exceptionFrame [0x01#8, 0x99#8, 0x01#8, 0x8B#8, 0x90#8]),
        State.reset.coil, State.reset.hr, []) := by decide +kernel

/-! ### Read Coils (95 section 2.4) -/

theorem test_rdcoil_six :
    reply (image coils101100) [0x01#8, 0x01#8, 0x00#8, 0x01#8, 0x00#8, 0x06#8, 0xC8#8, 0xED#8] =
      some (.respond [0x01#8, 0x01#8, 0x01#8, 0x0D#8, 0x90#8, 0x4D#8]) := by decide +kernel

/-- `NUMCOILS = 16`, coils `1001000011000001` (95 section 2.4, second table). -/
def sixteen : State :=
  { State.reset with
    cfg := { Config.reference with numCoils := 16, coilReset := List.replicate 16 false }
    coil := [true, false, false, true, false, false, false, false, true, true, false, false, false, false, false, true] }

theorem test_rdcoil_nine_of_sixteen :
    reply sixteen [0x01#8, 0x01#8, 0x00#8, 0x01#8, 0x00#8, 0x09#8, 0xCC#8, 0xAD#8] =
      some (.respond [0x01#8, 0x01#8, 0x02#8, 0x09#8, 0x01#8, 0x7E#8, 0x6C#8]) := by decide +kernel

/-! ### Read Holding Registers (95 section 2.5) -/

theorem test_rdhr_all :
    reply State.reset [0x01#8, 0x03#8, 0x00#8, 0x00#8, 0x00#8, 0x0A#8, 0xCD#8, 0xC5#8] =
      some (.respond [0x01#8, 0x03#8, 0x14#8, 0x00#8, 0x64#8, 0x00#8, 0xC8#8, 0x01#8, 0x2C#8, 0x01#8, 0x90#8, 0x01#8,
        0xF4#8, 0x02#8, 0x58#8, 0x02#8, 0xBC#8, 0x03#8, 0x20#8, 0x03#8, 0x84#8, 0x03#8, 0xE8#8, 0xDB#8, 0x70#8]) := by
  decide +kernel
theorem test_rdhr_no_wrap :
    reply State.reset [0x01#8, 0x03#8, 0xFF#8, 0xFF#8, 0x00#8, 0x02#8, 0x2F#8, 0xC4#8] =
      some (.noResponse .range) := by decide +kernel

/-! ### Write Single Coil (95 section 2.6) -/

theorem test_wrcoil_off :
    shows (step { image coils101100 with
        req := some [0x01#8, 0x05#8, 0x00#8, 0x00#8, 0x00#8, 0x00#8, 0xCA#8, 0xCD#8] }) =
      some (some (.respond [0x01#8, 0x05#8, 0x00#8, 0x00#8, 0x00#8, 0x00#8, 0xCD#8, 0xCA#8]),
        [false, false, true, true, false, false], State.reset.hr, [.write 0 false, .read 0]) := by decide +kernel
theorem test_wrcoil_bad_value :
    shows (step { image coils101100 with
        req := some [0x01#8, 0x05#8, 0x00#8, 0x02#8, 0x12#8, 0x34#8, 0x7D#8, 0x61#8] }) =
      some (some (.noResponse .value), coils101100, State.reset.hr, []) := by decide +kernel

/-! ### Write Single Register (95 section 2.7) -/

theorem test_wrreg_not_stored :
    (reply State.reset [0x01#8, 0x06#8, 0x00#8, 0x03#8, 0xAB#8, 0xCD#8, 0x6F#8, 0xC7#8],
      hrAfter State.reset [0x01#8, 0x06#8, 0x00#8, 0x03#8, 0xAB#8, 0xCD#8, 0x6F#8, 0xC7#8]) =
    (some (.respond [0x01#8, 0x06#8, 0x00#8, 0x03#8, 0xAB#8, 0xCD#8, 0xC7#8, 0x6F#8]), some State.reset.hr) := by
  decide +kernel
theorem test_wrreg_stored :
    hrAfter { State.reset with cfg := { Config.reference with wrRegStore := true } }
      [0x01#8, 0x06#8, 0x00#8, 0x03#8, 0xAB#8, 0xCD#8, 0x6F#8, 0xC7#8] =
    some [100#16, 200#16, 300#16, 0xABCD#16, 500#16, 600#16, 700#16, 800#16, 900#16, 1000#16] := by decide +kernel

/-! ### Unsupported function codes (95 section 2.3) -/

theorem test_illfc_no_bit7 :
    reply State.reset [0x01#8, 0x02#8, 0x00#8, 0x00#8, 0x00#8, 0x01#8, 0xCA#8, 0xB9#8] =
      some (.exceptionFrame [0x01#8, 0x82#8, 0x01#8, 0x81#8, 0x60#8]) := by decide +kernel
theorem test_illfc_other_slave_id :
    reply { State.reset with cfg := { Config.reference with slaveId := 0x11#8 } }
      [0x11#8, 0x2B#8, 0x0E#8, 0x01#8, 0x00#8, 0x00#8, 0x74#8, 0x74#8] =
      some (.exceptionFrame [0x11#8, 0xAB#8, 0x01#8, 0x9F#8, 0x35#8]) := by decide +kernel

/-! ### Reset and delivery (70 rule R170, 60 rule R148) -/

theorem test_reset_event :
    step { image coils101100 with line := [.reset] } = .next State.reset := by rfl
theorem test_deliver_event :
    step { State.reset with line := [.frame [0x01#8]] } = .next { State.reset with req := some [0x01#8] } := by rfl
theorem test_port_codes :
    ({ State.reset with status := .exceptionFrame, rsp := [0x01#8] } : State).portOutcome = 2#2 ∧
    State.reset.portReqReady = true ∧ State.reset.portRspLen = 0#8 := by decide

/-! ### Witnesses: a concrete state and operands that meet the hypotheses of each statement of Obligations.lean, at boundary
values where a clause has a range -/

/-- The state a step answers, if it answers one. -/
def nextOf (o : Host.Outcome State Fault Refusal) : Option State :=
  match o with
  | .next t => some t
  | _ => none

theorem next_with {o : Host.Outcome State Fault Refusal} (p : State → Bool) (h : (nextOf o).any p = true) :
    ∃ t, o = .next t ∧ p t = true := by
  cases o with
  | next t => exact ⟨t, rfl, h⟩
  | fault r => cases h
  | refused r => cases h

/-- `RDCOIL 1, 6` (95 section 2.4). -/
def fRdcoil : List Byte := [0x01#8, 0x01#8, 0x00#8, 0x01#8, 0x00#8, 0x06#8, 0xC8#8, 0xED#8]
/-- `RDHR 9, 1` (95 section 2.5). -/
def fRdhr : List Byte := [0x01#8, 0x03#8, 0x00#8, 0x09#8, 0x00#8, 0x01#8, 0x08#8, 0x54#8]
/-- `WRCOIL 5, 0xFF00` (95 section 2.6). -/
def fWrcoil : List Byte := [0x01#8, 0x05#8, 0x00#8, 0x05#8, 0xFF#8, 0x00#8, 0x3B#8, 0x9C#8]
/-- `WRREG 9, 0xFFFF` (95 section 2.7). -/
def fWrreg : List Byte := [0x01#8, 0x06#8, 0x00#8, 0x09#8, 0xFF#8, 0xFF#8, 0x78#8, 0x58#8]
/-- `FC 0x99, 0, 0` (95 section 2.3). -/
def fIllfc : List Byte := [0x01#8, 0x99#8, 0x00#8, 0x00#8, 0x00#8, 0x00#8, 0xD6#8, 0x1D#8]
/-- `RDCOIL 7, 1`, dropped as RANGE (95 section 2.4). -/
def fRange : List Byte := [0x01#8, 0x01#8, 0x00#8, 0x07#8, 0x00#8, 0x01#8, 0x0B#8, 0x4C#8]
/-- A frame of 7 bytes, one to another slave, one with a bad CRC (95 section 2.2). -/
def fShort : List Byte := [0x01#8, 0x03#8, 0x00#8, 0x00#8, 0x00#8, 0x84#8, 0x19#8]
def fAddr : List Byte := [0x02#8, 0x03#8, 0x00#8, 0x00#8, 0x00#8, 0x0A#8, 0xFE#8, 0xC5#8]
def fCrc : List Byte := [0x01#8, 0x03#8, 0x00#8, 0x00#8, 0x00#8, 0x0A#8, 0xCD#8, 0xC4#8]

/-- The reference machine with coils `101100` and a frame presented. -/
def withFrame (f : List Byte) : State := { image coils101100 with req := some f }

/-- The reference machine with an oracle backend. -/
def oracleState : State := { image coils101100 with cfg := { Config.reference with backend := .oracle } }

/-- A configuration other than the reference one: two coils, the greatest register file, every switch the other way. -/
def otherConfig : Config where
  slaveId := 0x11#8
  numCoils := 2
  numRegisters := 125
  regReset := List.replicate 125 7#16
  coilReset := [true, false]
  reqCrcMsbFirst := false
  wrRegStore := true
  backend := .oracle

theorem witness_SingleBitFlipFailsVerification :
    verifyCrc (fRdcoil.take 6) 0xC8#8 0xED#8 = true ∧ 0 < (fRdcoil.take 6).length ∧ 5 < (fRdcoil.take 6).length := by
  decide +kernel
theorem witness_SingleBitFlipDropsFrame :
    validate Config.reference fRdcoil = none ∧ 0 < fRdcoil.length ∧ 7 < fRdcoil.length := by decide +kernel
theorem witness_FrameAcceptedExactlyWhenThreeChecksPass :
    Config.reference.reqCrcMsbFirst = true ∧ fRdcoil.length = 8 ∧ validate Config.reference fRdcoil = none ∧
    validate Config.reference fShort ≠ none := by decide +kernel
theorem witness_DropCauseIsFirstFailingCheck :
    validate Config.reference fShort = some .short ∧ validate Config.reference fAddr = some .addr ∧
    validate Config.reference fCrc = some .crc := by decide +kernel
theorem witness_RejectedFrameProducesNothing :
    (withFrame fShort).cfg.legal = true ∧ (withFrame fShort).req = some fShort ∧ fShort.length ≤ 256 ∧
    validate (withFrame fShort).cfg fShort = some .short ∧ validate (withFrame fAddr).cfg fAddr = some .addr ∧
    validate (withFrame fCrc).cfg fCrc = some .crc := by decide +kernel
theorem witness_RejectedFrameProducesNothing_exception :
    ∃ t, step (withFrame fIllfc) = .next t ∧ decide (t.status = .exceptionFrame) = true := next_with _ (by decide +kernel)
theorem witness_LoopedBackResponseRejected :
    Config.reference.reqCrcMsbFirst = true ∧ 6 ≤ (fRdcoil.take 6).length ∧
    (fRdcoil.take 6)[0]? = some Config.reference.slaveId ∧
    hi8 (crc16 (fRdcoil.take 6)) ≠ lo8 (crc16 (fRdcoil.take 6)) := by decide +kernel
theorem witness_LoopedBackResponseRejected_equal_bytes :
    ([0x11#8, 0x2B#8, 0x0E#8, 0x01#8, 0x00#8, 0x00#8] : List Byte)[0]? =
      some ({ Config.reference with slaveId := 0x11#8 } : Config).slaveId ∧
    hi8 (crc16 [0x11#8, 0x2B#8, 0x0E#8, 0x01#8, 0x00#8, 0x00#8]) =
      lo8 (crc16 [0x11#8, 0x2B#8, 0x0E#8, 0x01#8, 0x00#8, 0x00#8]) := by decide +kernel
theorem witness_DecodeEncodeGivesRequestBack :
    (Instr.rdcoil 0xFFFF#16 0#16).wf = true ∧ (Instr.rdhr 0#16 0xFFFF#16).wf = true ∧
    (Instr.wrcoil 0#16 0x1234#16).wf = true ∧ (Instr.wrreg 0xFFFF#16 0xFFFF#16).wf = true ∧
    (Instr.illfc 0x00#8).wf = true ∧ (Instr.illfc 0xFF#8).wf = true := by decide
theorem witness_AcceptedFrameIsItsRequestsEncoding :
    decode Config.reference fRdcoil = .ok (.rdcoil 1#16 6#16) ∧ decode Config.reference fIllfc = .ok (.illfc 0x99#8) := by
  decide +kernel
theorem witness_FunctionCodeSelectsRequest :
    validate Config.reference fRdcoil = none ∧ validate Config.reference fRdhr = none ∧
    validate Config.reference fWrcoil = none ∧ validate Config.reference fWrreg = none ∧
    validate Config.reference fIllfc = none := by decide +kernel
theorem witness_StepRunsDecodedRequest :
    (withFrame fRdhr).cfg.legal = true ∧ (withFrame fRdhr).req = some fRdhr ∧ fRdhr.length ≤ 256 ∧
    decode (withFrame fRdhr).cfg fRdhr = .ok (.rdhr 9#16 1#16) := by decide +kernel
theorem witness_IdleBlockTakesNextFrame :
    ({ State.reset with line := [.frame (List.replicate 256 0#8)] } : State).cfg.legal = true ∧
    ({ State.reset with line := [.frame (List.replicate 256 0#8)] } : State).req = none ∧
    (List.replicate 256 0#8).length ≤ 256 := by decide +kernel
theorem witness_IdleBlockWaits :
    State.reset.cfg.legal = true ∧ State.reset.req = none ∧ State.reset.line = [] := by decide
theorem witness_ResetReturnsDefaultImage :
    ({ image coils101100 with line := [.reset] } : State).cfg.legal = true ∧
    ({ image coils101100 with line := [.reset] } : State).req = none ∧
    ({ image coils101100 with line := [.reset] } : State).line = .reset :: [] := by decide
theorem witness_ResetReturnsDefaultImage_cut :
    ({ image coils101100 with line := [.cutFrame fWrcoil, .reset] } : State).cfg.legal = true ∧
    ({ image coils101100 with line := [.cutFrame fWrcoil, .reset] } : State).req = none ∧ fWrcoil.length ≤ 256 ∧
    ({ image coils101100 with line := [.cutFrame fWrcoil, .reset] } : State).line = .cutFrame fWrcoil :: [.reset] := by
  decide
theorem witness_ResetMeetsInvariant : otherConfig.legal = true := by decide +kernel
theorem witness_StepKeepsInvariant :
    (withFrame fRdcoil).Inv ∧ ∃ t, step (withFrame fRdcoil) = .next t ∧ decide (t.status = .respond) = true :=
  ⟨⟨by decide +kernel, by decide +kernel, rfl⟩, next_with _ (by decide +kernel)⟩
theorem witness_StepStopsOnlyOnMeaninglessInput :
    ({ State.reset with cfg := { Config.reference with numCoils := 0 } } : State).cfg.legal = false ∧
    State.reset.cfg.legal = true ∧ (withFrame fRdcoil).req = some fRdcoil ∧ fRdcoil.length ≤ 256 ∧
    256 < (List.replicate 257 0#8).length ∧ State.reset.req = none ∧ State.reset.line = [] ∧
    (Event.frame (List.replicate 256 0#8)).fits = true ∧ (Event.frame (List.replicate 257 0#8)).fits = false ∧
    Event.reset.fits = true ∧ (Event.cutFrame (List.replicate 257 0#8)).fits = false := by decide +kernel
theorem witness_ConstantsNeverChange :
    ∃ t, step (withFrame fWrreg) = .next t ∧ decide (t.status = .respond) = true := next_with _ (by decide +kernel)
theorem witness_EveryResponseIsFramedPayload :
    (withFrame fIllfc).Inv ∧ (withFrame fIllfc).req = some fIllfc ∧
    ∃ t, step (withFrame fIllfc) = .next t ∧ decide (t.rsp.length = 5) = true :=
  ⟨⟨by decide +kernel, by decide +kernel, rfl⟩, rfl, next_with _ (by decide +kernel)⟩
theorem witness_ReadCoilsAnswers :
    State.reset.coil.length = State.reset.cfg.numCoils ∧ State.reset.cfg.backend = .ideal ∧
    (1#16).toNat ≤ 2000 ∧ 1 ≤ (6#16).toNat ∧ ((6#16).toNat - 1) + (1#16).toNat ≤ State.reset.cfg.numCoils ∧
    ((1#16).toNat - 1) + (6#16).toNat ≤ State.reset.cfg.numCoils := by decide
theorem witness_ReadCoilsAnswers_oracle :
    oracleState.coil.length = oracleState.cfg.numCoils ∧ oracleState.cfg.backend = .oracle ∧
    ((6#16).toNat - 1) + (1#16).toNat ≤ oracleState.cfg.numCoils := by decide
theorem witness_ReadCoilsDropsBadArguments :
    ((0#16).toNat < 1 ∧ 2000 < (2001#16).toNat) ∧ ((1#16).toNat ≤ 2000 ∧ (2000#16).toNat ≤ 2000) ∧ (0#16).toNat < 1 ∧
    State.reset.cfg.numCoils < ((7#16).toNat - 1) + (1#16).toNat := by decide
theorem witness_CoilsPackedLeastSignificantFirst :
    1 < ((List.replicate 9 true).length + 7) / 8 ∧ 8 * 1 + 0 < (List.replicate 9 true).length ∧
    ¬ 8 * 1 + 1 < (List.replicate 9 true).length := by decide
theorem witness_ReadRegistersAnswersOrDrops :
    State.reset.hr.length = State.reset.cfg.numRegisters ∧
    (9#16).toNat + (1#16).toNat ≤ State.reset.cfg.numRegisters ∧
    State.reset.cfg.numRegisters < (9#16).toNat + (2#16).toNat := by decide
theorem witness_RegisterResponseLayout :
    State.reset.cfg.legal = true ∧ State.reset.hr.length = State.reset.cfg.numRegisters ∧
    (0#16).toNat + (10#16).toNat ≤ State.reset.cfg.numRegisters ∧ 9 < (10#16).toNat ∧
    (10#16).toNat + (0#16).toNat ≤ State.reset.cfg.numRegisters := by decide
theorem witness_RegisterCountZeroAnswered :
    (10#16).toNat ≤ State.reset.cfg.numRegisters ∧ State.reset.cfg.numRegisters < (11#16).toNat := by decide
theorem witness_RangeSumsDoNotWrap :
    State.reset.cfg.legal = true ∧ 65536 ≤ (0xFFFF#16).toNat + (1#16).toNat ∧
    65536 < (0xFFFF#16).toNat + (2#16).toNat ∧ (2#16).toNat ≤ 2000 := by decide
theorem witness_ByteCountCountsPayload :
    (∃ t, exec (.rdcoil 1#16 6#16) State.reset = .next t ∧ decide (t.status = .respond) = true) ∧
    (∃ t, exec (.rdhr 0#16 10#16) State.reset = .next t ∧ decide (t.status = .respond) = true) :=
  ⟨next_with _ (by decide +kernel), next_with _ (by decide +kernel)⟩
theorem witness_ReadResponsesDependOnTheirFileOnly :
    (image coils101100).cfg = State.reset.cfg ∧ (image coils101100).hr = State.reset.hr ∧
    (image coils101100).coil ≠ State.reset.coil ∧
    ({ State.reset with hr := List.replicate 10 0#16 } : State).coil = State.reset.coil ∧
    State.reset.cfg.backend = .ideal := by decide
theorem witness_WriteCoilDrivesCoilAndEchoes :
    State.reset.cfg.backend = .ideal ∧ State.reset.coil.length = State.reset.cfg.numCoils ∧
    (0#16).toNat < State.reset.cfg.numCoils ∧ (5#16).toNat < State.reset.cfg.numCoils ∧
    (0xFF00#16 = if true then 0xFF00#16 else 0x0000#16) ∧ (0x0000#16 = if false then 0xFF00#16 else 0x0000#16) := by
  decide
theorem witness_WriteCoilDropsBadArguments :
    0x00FF#16 ≠ 0xFF00#16 ∧ 0x00FF#16 ≠ 0x0000#16 ∧ State.reset.cfg.numCoils ≤ (6#16).toNat := by decide
theorem witness_OracleReadBackDecides :
    oracleState.cfg.backend = .oracle ∧ (5#16).toNat < oracleState.cfg.numCoils := by decide
theorem witness_OracleReadBackDecides_match : ∃ on : Bool, Config.freeCoilRead (oracleState.draws + 1) = on := ⟨_, rfl⟩
theorem witness_OracleReadBackDecides_mismatch : ∃ on : Bool, Config.freeCoilRead (oracleState.draws + 1) ≠ on :=
  ⟨!Config.freeCoilRead (oracleState.draws + 1), by simp⟩
theorem witness_IdealBackendNeverFailsReadBack :
    (withFrame fWrcoil).cfg.backend = .ideal ∧ (withFrame fWrcoil).coil.length = (withFrame fWrcoil).cfg.numCoils ∧
    ∃ t, exec (.wrcoil 5#16 0xFF00#16) (withFrame fWrcoil) = .next t ∧ decide (t.status = .respond) = true :=
  ⟨rfl, rfl, next_with _ (by decide +kernel)⟩
theorem witness_WriteRegisterEchoesAndStoresIfConfigured :
    (9#16).toNat < State.reset.cfg.numRegisters ∧ State.reset.cfg.numRegisters ≤ (10#16).toNat ∧
    (124#16).toNat < otherConfig.numRegisters ∧ otherConfig.wrRegStore = true := by decide
theorem witness_EchoCopiesSixRequestBytes :
    ((withFrame fWrcoil).req = some fWrcoil ∧
      decode (withFrame fWrcoil).cfg fWrcoil = .ok (.wrcoil 5#16 0xFF00#16) ∧
      ∃ t, step (withFrame fWrcoil) = .next t ∧ decide (t.status = .respond) = true) ∧
    ((withFrame fWrreg).req = some fWrreg ∧ decode (withFrame fWrreg).cfg fWrreg = .ok (.wrreg 9#16 0xFFFF#16) ∧
      ∃ t, step (withFrame fWrreg) = .next t ∧ decide (t.status = .respond) = true) :=
  ⟨⟨rfl, by decide +kernel, next_with _ (by decide +kernel)⟩,
    ⟨rfl, by decide +kernel, next_with _ (by decide +kernel)⟩⟩
theorem witness_EchoExchangesCrcBytes :
    (withFrame fWrcoil).cfg.reqCrcMsbFirst = true ∧ (withFrame fWrcoil).req = some fWrcoil ∧ fWrcoil.length = 8 ∧
    decode (withFrame fWrcoil).cfg fWrcoil = .ok (.wrcoil 5#16 0xFF00#16) ∧
    ∃ t, step (withFrame fWrcoil) = .next t ∧ decide (t.status = .respond) = true :=
  ⟨rfl, rfl, rfl, by decide +kernel, next_with _ (by decide +kernel)⟩
theorem witness_UnsupportedCodeGetsException :
    (withFrame fIllfc).cfg.legal = true ∧ (withFrame fIllfc).req = some fIllfc ∧ fIllfc.length ≤ 256 ∧
    validate (withFrame fIllfc).cfg fIllfc = none ∧ fIllfc[1]? = some 0x99#8 ∧
    0x99#8 ∉ [0x01#8, 0x03#8, 0x05#8, 0x06#8] := by decide +kernel
theorem witness_UnsupportedCodeGetsException_code :
    ∃ t, step { image coils101100 with req := some fIllfc } = .next t ∧ decide (t.status = .exceptionFrame) = true :=
  next_with _ (by decide +kernel)
theorem witness_OnlyWriteHandlersChangeImage :
    (∃ t, exec (.wrcoil 5#16 0xFF00#16) (image coils101100) = .next t ∧
      decide (t.coil[5]? ≠ (image coils101100).coil[5]?) = true) ∧
    (∃ t, exec (.wrreg 124#16 1#16) (State.resetOf otherConfig) = .next t ∧
      decide (t.hr[124]? ≠ (State.resetOf otherConfig).hr[124]?) = true) :=
  ⟨next_with _ (by decide +kernel), next_with _ (by decide +kernel)⟩
theorem witness_SwitchedCoilReadsBackAtNextAddress :
    (image coils101100).cfg.legal = true ∧ (image coils101100).cfg.backend = .ideal ∧
    (image coils101100).coil.length = (image coils101100).cfg.numCoils ∧
    (5#16).toNat < (image coils101100).cfg.numCoils ∧
    sameImage (image coils101100) { image coils101100 with rsp := [0x01#8] } :=
  ⟨by decide, rfl, rfl, by decide, rfl, rfl, rfl⟩
theorem witness_RepeatedRequestSameOutcome :
    (withFrame fWrcoil).cfg.backend = .ideal ∧ (withFrame fWrcoil).coil.length = (withFrame fWrcoil).cfg.numCoils ∧
    (withFrame fWrcoil).req = some fWrcoil ∧
    ∃ t, step (withFrame fWrcoil) = .next t ∧ decide (t.status = .respond) = true :=
  ⟨rfl, rfl, rfl, next_with _ (by decide +kernel)⟩
theorem witness_DroppedFrameLeavesNoTrace :
    (∃ t, step { image coils101100 with req := some fRange } = .next t ∧
      decide (t.status = .noResponse .range) = true) ∧
    (∃ t, step { image coils101100 with req := some fIllfc } = .next t ∧
      decide (t.status = .exceptionFrame) = true) :=
  ⟨next_with _ (by decide +kernel), next_with _ (by decide +kernel)⟩
theorem witness_TrailingBytesIgnored :
    validate Config.reference [0x01#8, 0x03#8, 0x00#8, 0x00#8, 0x00#8, 0x01#8, 0x0A#8, 0x84#8] = none ∧
    validate Config.reference [0x01#8, 0x03#8, 0x00#8, 0x00#8, 0x00#8, 0x01#8, 0xAA#8, 0xBB#8, 0xD4#8, 0xDD#8] =
      none := by decide +kernel
theorem witness_RunFoldsTransactions :
    State.reset.cfg.legal = true ∧ State.reset.req = none ∧ State.reset.line = [] ∧
    (∀ f ∈ [fWrcoil, fRdcoil, fIllfc, fShort], f.length ≤ 256) ∧
    0 < [fWrcoil, fRdcoil, fIllfc, fShort].length ∧ 3 < [fWrcoil, fRdcoil, fIllfc, fShort].length := by decide

end Sys2Proof.Tests
end

/-! Registers and coils are separate address spaces (spec/10_state.md rule R21): each write handler answers a next state,
and leaves the other file of the image as it was. -/

namespace Sys2Proof.Machine

variable {s t : State} {addr value : Word}

@[simp] theorem dropped_hr (s : State) (cause : DropCause) : (dropped s cause).hr = s.hr := rfl
@[simp] theorem dropped_coil (s : State) (cause : DropCause) : (dropped s cause).coil = s.coil := rfl

/-- Every check of Write Single Coil that fails drops the frame; none stops the block. -/
theorem execWrcoil_answers (addr value : Word) (s : State) : ∃ t, execWrcoil addr value s = .next t := by
  unfold execWrcoil
  split
  · exact ⟨_, rfl⟩
  · split
    · exact ⟨_, rfl⟩
    · split <;> exact ⟨_, rfl⟩

/-- A register address out of range drops the frame; it does not stop the block. -/
theorem execWrreg_answers (addr value : Word) (s : State) : ∃ t, execWrreg addr value s = .next t := by
  unfold execWrreg
  split
  · exact ⟨_, rfl⟩
  · split <;> exact ⟨_, rfl⟩

/-- No outcome of Write Single Coil, a failed read-back included, touches a register. -/
theorem execWrcoil_hr (h : execWrcoil addr value s = .next t) : t.hr = s.hr := by
  obtain ⟨-, rfl⟩ | ⟨-, rfl⟩ | ⟨b, -, -, -, rfl⟩ | ⟨b, -, -, -, rfl⟩ := execWrcoil_cases h
  case inl | inr.inl => exact dropped_hr s _
  case inr.inr.inl => simp only [State.echo_hr, State.coilRead_hr, State.coilWrite_hr]
  case inr.inr.inr => simp only [dropped_hr, State.coilRead_hr, State.coilWrite_hr]

/-- No outcome of Write Single Register, stored or not, touches a coil. -/
theorem execWrreg_coil (h : execWrreg addr value s = .next t) : t.coil = s.coil := by
  obtain ⟨-, rfl⟩ | ⟨-, -, rfl⟩ | ⟨-, -, rfl⟩ := execWrreg_cases h
  case inl => exact dropped_coil s _
  case inr.inl => simp only [State.echo_coil, State.writeHr_coil]
  case inr.inr => exact s.echo_coil

end Sys2Proof.Machine

namespace Sys2Proof

open Machine

/-- Settles O47: each write handler answers a next state, and the frame lemma of the handler keeps the other file. -/
theorem registersAndCoilsDoNotAlias : Obligations.RegistersAndCoilsDoNotAlias := by
  intro s addr value
  obtain ⟨t, ht⟩ := execWrcoil_answers addr value s
  obtain ⟨u, hu⟩ := execWrreg_answers addr value s
  exact ⟨⟨t, ht, execWrcoil_hr ht⟩, ⟨u, hu, execWrreg_coil hu⟩⟩

end Sys2Proof

/-! The response formats of spec/30_encoding.md section 3: `RSP_EXC` (rule R60), and the two read responses `RSP_COILS` and
`RSP_REGS` (rules R57, R58), which share one shape, a header that counts the data (rule R64), the data, and the CRC. -/

namespace Sys2Proof.Machine

variable {s t : State} {start count : Word}

/-! ### The meaning `exec` gives the kinds that build a response of their own -/

theorem exec_rdcoil (start count : Word) (s : State) : exec (.rdcoil start count) s = execRdcoil start count s := rfl

theorem exec_rdhr (start count : Word) (s : State) : exec (.rdhr start count) s = execRdhr start count s := rfl

theorem exec_illfc (fc : Byte) (s : State) : exec (.illfc fc) s = .next (s.raiseIllegalFunction fc) := rfl

/-! ### Outcomes and the legal register count -/

@[simp] theorem dropped_status (s : State) (cause : DropCause) : (dropped s cause).status = .noResponse cause := rfl

@[simp] theorem State.respond_outcome (s : State) (p : List Byte) :
    (s.respond p).outcome = some (.respond (framed p)) := rfl

theorem numRegisters_le_of_legal {cfg : Config} (h : cfg.legal = true) : cfg.numRegisters ≤ 125 := by
  simp only [Config.legal, Bool.and_eq_true, decide_eq_true_eq] at h
  omega

/-! ### The bytes of a framed payload -/

theorem framed_getElem?_of_lt {p : List Byte} {i : Nat} (h : i < p.length) : (framed p)[i]? = p[i]? :=
  List.getElem?_append_left h

theorem framed_take (p : List Byte) : (framed p).take p.length = p := List.take_left

/-- The first byte after the payload is the low byte of its CRC. -/
theorem framed_getElem?_length (p : List Byte) : (framed p)[p.length]? = some (lo8 (crc16 p)) := by
  simp [framed]

/-- The last byte is the high byte of the CRC. -/
theorem framed_getElem?_length_succ (p : List Byte) : (framed p)[p.length + 1]? = some (hi8 (crc16 p)) := by
  simp [framed]

/-! ### The registers read, and their bytes -/

theorem State.hr_getElem?_eq_readHr {i : Nat} (h : i < s.hr.length) : s.hr[i]? = some (s.readHr i) := by
  simp [State.readHr, h]

theorem State.readHrs_getElem? (s : State) (i : Nat) {n k : Nat} (h : k < n) :
    (s.readHrs i n)[k]? = some (s.readHr (i + k)) := by
  simp [State.readHrs, h]

/-- Word `k` of a list stands at bytes `2k` and `2k + 1`, high byte first. -/
theorem flatMap_be16Bytes_getElem? {vs : List Word} {k : Nat} {v : Word} (h : vs[k]? = some v) :
    (vs.flatMap be16Bytes)[2 * k]? = some (hi8 v) ∧ (vs.flatMap be16Bytes)[2 * k + 1]? = some (lo8 v) := by
  induction vs generalizing k with
  | nil => simp at h
  | cons w ws ih =>
    cases k with
    | zero =>
      obtain rfl : w = v := by simpa using h
      exact ⟨rfl, rfl⟩
    | succ k => exact ih (by simpa using h)

/-! ### The shape of the two read responses -/

/-- The payload of a read response: slave id, function code, the number of data bytes, the data bytes. -/
def readPayload (id code : Byte) (data : List Byte) : List Byte :=
  [id, code, BitVec.ofNat 8 data.length] ++ data

variable {id code : Byte} {data : List Byte}

@[simp] theorem readPayload_length : (readPayload id code data).length = 3 + data.length := by
  simp [readPayload]; omega

/-- The data bytes follow the three bytes of the header. -/
theorem framed_readPayload_data {i : Nat} (h : i < data.length) :
    (framed (readPayload id code data))[3 + i]? = data[i]? := by
  rw [framed_getElem?_of_lt (by simpa using h), readPayload, List.getElem?_append_right (by simp)]
  simp

/-- Rule R64: the count byte is exact, since one byte can hold the number of data bytes. -/
theorem framed_readPayload_byteCount (h : data.length < 256) :
    ∃ n : Byte, (framed (readPayload id code data))[2]? = some n ∧ n.toNat = data.length :=
  ⟨BitVec.ofNat 8 data.length, rfl, by simpa using h⟩

/-- The CRC is over everything before it, and stands low byte first. -/
theorem framed_readPayload_crc (id code : Byte) (data : List Byte) :
    (framed (readPayload id code data))[3 + data.length]? =
      some (lo8 (crc16 ((framed (readPayload id code data)).take (3 + data.length)))) ∧
    (framed (readPayload id code data))[4 + data.length]? =
      some (hi8 (crc16 ((framed (readPayload id code data)).take (3 + data.length)))) := by
  have hnext : 4 + data.length = (readPayload id code data).length + 1 := by rw [readPayload_length]; omega
  rw [hnext, ← readPayload_length (id := id) (code := code), framed_take]
  exact ⟨framed_getElem?_length _, framed_getElem?_length_succ _⟩

/-- The data of a register response. -/
def registerData (s : State) (start count : Word) : List Byte :=
  (s.readHrs start.toNat count.toNat).flatMap be16Bytes

@[simp] theorem registerData_length : (registerData s start count).length = 2 * count.toNat := by
  rw [registerData, flatMap_be16Bytes_length, State.readHrs_length]

/-- Register `start + k` stands at data bytes `2k` and `2k + 1`, high byte first. -/
theorem registerData_getElem? {k : Nat} (hk : k < count.toNat) :
    (registerData s start count)[2 * k]? = some (hi8 (s.readHr (start.toNat + k))) ∧
    (registerData s start count)[2 * k + 1]? = some (lo8 (s.readHr (start.toNat + k))) :=
  flatMap_be16Bytes_getElem? (s.readHrs_getElem? start.toNat hk)

/-- Registers in range are answered with a read response. -/
theorem execRdhr_of_le (h : start.toNat + count.toNat ≤ s.cfg.numRegisters) :
    execRdhr start count s =
      .next (s.respond (readPayload s.cfg.slaveId 0x03#8 (registerData s start count))) := by
  rw [readPayload, registerData_length]
  exact if_neg (by omega)

/-- What Read Holding Registers answers is a read response, at most the 250 bytes of 125 registers. -/
theorem execRdhr_response (hl : s.cfg.legal = true) (h : execRdhr start count s = .next t)
    (hr : t.status = .respond) :
    ∃ data : List Byte, data.length < 256 ∧ t.rsp = framed (readPayload s.cfg.slaveId 0x03#8 data) := by
  have hmax := numRegisters_le_of_legal hl
  obtain ⟨-, rfl⟩ | ⟨hle, -⟩ := execRdhr_cases h
  · simp at hr
  · cases (execRdhr_of_le hle).symm.trans h
    exact ⟨registerData s start count, by rw [registerData_length]; omega, State.respond_rsp s _⟩

/-- What Read Coils answers is a read response, at most the 250 bytes of 2000 coils. -/
theorem execRdcoil_response (h : execRdcoil start count s = .next t) (hr : t.status = .respond) :
    ∃ data : List Byte, data.length < 256 ∧ t.rsp = framed (readPayload s.cfg.slaveId 0x01#8 data) := by
  obtain ⟨-, rfl⟩ | ⟨-, rfl⟩ | ⟨-, hmax, -, -, rfl⟩ := execRdcoil_cases h
  · simp at hr
  · simp at hr
  · have hlen : (packCoils (s.coilAnswers (start.toNat - 1) count.toNat)).length = coilByteCount count.toNat := by
      rw [packCoils_length, State.coilAnswers_length]
    refine ⟨packCoils (s.coilAnswers (start.toNat - 1) count.toNat), ?_, ?_⟩
    · rw [hlen, coilByteCount]; omega
    · rw [readPayload, hlen, State.respond_rsp]

end Sys2Proof.Machine

namespace Sys2Proof

open Machine

/-- Settles O44: the exception is taken, and the framer appends the two CRC bytes to its three-byte payload. -/
theorem exceptionResponseLayout : Obligations.ExceptionResponseLayout := by
  intro s fc
  refine ⟨_, _, ?_, rfl, rfl⟩
  rw [exec_illfc]
  rfl

/-- Settles O35: either handler answers with a read response, whose count byte is exact. -/
theorem byteCountCountsPayload : Obligations.ByteCountCountsPayload := by
  intro s t start count hlegal hexec hstatus
  have hresponse : ∃ (code : Byte) (data : List Byte), data.length < 256 ∧
      t.rsp = framed (readPayload s.cfg.slaveId code data) := by
    obtain hcoils | hregisters := hexec
    · exact ⟨_, execRdcoil_response (exec_rdcoil start count s ▸ hcoils) hstatus⟩
    · exact ⟨_, execRdhr_response hlegal (exec_rdhr start count s ▸ hregisters) hstatus⟩
  obtain ⟨code, data, hlen, hrsp⟩ := hresponse
  obtain ⟨n, hbyte, hn⟩ := framed_readPayload_byteCount (id := s.cfg.slaveId) (code := code) hlen
  refine ⟨n, hrsp ▸ hbyte, ?_⟩
  rw [hrsp, framed_length, readPayload_length, hn]

/-- Settles O32: the response is a framed read payload, read off by its header, its data bytes and its trailer. -/
theorem registerResponseLayout : Obligations.RegisterResponseLayout := by
  intro s start count hlegal hhr hrange
  have hmax := numRegisters_le_of_legal hlegal
  have hlen : (registerData s start count).length = 2 * count.toNat := registerData_length
  obtain ⟨hcrcLow, hcrcHigh⟩ := framed_readPayload_crc s.cfg.slaveId 0x03#8 (registerData s start count)
  refine ⟨_, by rw [exec_rdhr, execRdhr_of_le hrange], State.respond_outcome s _, ?_⟩
  rw [State.respond_rsp, ← hlen]
  refine ⟨by rw [framed_length, readPayload_length], rfl, rfl, framed_readPayload_byteCount (by omega), ?registers,
    hcrcLow, hcrcHigh⟩
  case registers =>
    intro k hk
    obtain ⟨hhigh, hlow⟩ := registerData_getElem? (s := s) (start := start) hk
    refine ⟨s.readHr (start.toNat + k), State.hr_getElem?_eq_readHr (by omega), ?_, ?_⟩
    · rw [framed_readPayload_data (by omega), hhigh]
    · rw [show 4 + 2 * k = 3 + (2 * k + 1) by omega, framed_readPayload_data (by omega), hlow]

end Sys2Proof

/-! The CRC codec (spec/40_crc.md). Every pass of the byte loop is one-to-one in the register and in the byte taken in, so
two messages that differ in a single byte never share a CRC. That a flipped bit is always noticed (rule R86) needs nothing
more: it changes one byte of the data, or one of the two bytes the CRC is compared with. -/

namespace Sys2Proof.Machine

/-! ### The byte loop of rule R80 -/

theorem crcShifts_eq_iterate (n : Nat) (crc : Word) : crcShifts n crc = crcShift^[n] crc := by
  induction n generalizing crc with
  | zero => rfl
  | succ n ih => rw [crcShifts, ih, Function.iterate_succ_apply]

theorem crcByte_eq_iterate (crc : Word) (b : Byte) : crcByte crc b = crcShift^[8] (crc ^^^ b.setWidth 16) :=
  crcShifts_eq_iterate 8 _

/-! ### No pass of the loop loses information -/

/-- The right shift clears bit 15 and 0xA001 has it set, so bit 15 afterwards is the bit that left. -/
theorem crcShift_getLsbD_fifteen (crc : Word) : (crcShift crc).getLsbD 15 = crc.getLsbD 0 := by
  unfold crcShift
  split <;> simp_all [Config.crcPoly]

/-- Bit 0 of the register is read off bit 15 of the result; once it is known, so is what was exclusive-ored in, and the
other 15 bits stand in the result one place lower. -/
theorem crcShift_injective : Function.Injective crcShift := by
  intro x y h
  have hout : x.getLsbD 0 = y.getLsbD 0 := by rw [← crcShift_getLsbD_fifteen, h, crcShift_getLsbD_fifteen]
  have hrest : x >>> 1 = y >>> 1 := by
    unfold crcShift at h
    rw [hout] at h
    split at h
    · exact (BitVec.xor_left_inj _).1 h
    · exact h
  apply BitVec.eq_of_getLsbD_eq
  intro i _
  cases i with
  | zero => exact hout
  | succ i => simpa [Nat.add_comm 1 i] using congrArg (·.getLsbD i) hrest

theorem crcByte_left_injective (b : Byte) : Function.Injective (crcByte · b) := by
  intro x y h
  simp only [crcByte_eq_iterate] at h
  exact (BitVec.xor_left_inj _).1 (crcShift_injective.iterate 8 h)

theorem crcByte_right_injective (crc : Word) : Function.Injective (crcByte crc) := by
  intro a b h
  simp only [crcByte_eq_iterate] at h
  have hwide : a.setWidth 16 = b.setWidth 16 := (BitVec.xor_right_inj _).1 (crcShift_injective.iterate 8 h)
  simpa using congrArg (BitVec.setWidth 8) hwide

/-- Two registers that differ stay different whatever bytes follow. -/
theorem foldl_crcByte_injective (data : List Byte) : Function.Injective (data.foldl crcByte) := by
  induction data with
  | nil => exact Function.injective_id
  | cons b data ih => exact ih.comp (crcByte_left_injective b)

theorem crc16_append_cons_inj {before after : List Byte} {a b : Byte} :
    crc16 (before ++ a :: after) = crc16 (before ++ b :: after) ↔ a = b := by
  simp only [crc16, List.foldl_append, List.foldl_cons]
  exact ((foldl_crcByte_injective after).comp (crcByte_right_injective _)).eq_iff

theorem crc16_set_inj {data : List Byte} {k : Nat} (hk : k < data.length) {a b : Byte} :
    crc16 (data.set k a) = crc16 (data.set k b) ↔ a = b := by
  simp only [List.set_eq_take_append_cons_drop, if_pos hk, crc16_append_cons_inj]

theorem set_byteAt_self (data : List Byte) (k : Nat) : data.set k (byteAt data k) = data := by
  by_cases hk : k < data.length
  · simp [byteAt, hk]
  · exact List.set_eq_of_length_le (Nat.le_of_not_lt hk)

/-! ### The two received bytes -/

theorem be16_eq_append (h l : Byte) : be16 h l = h ++ l := by
  rw [be16, ← BitVec.setWidth_append_eq_shiftLeft_setWidth_or, BitVec.setWidth_eq]

@[simp] theorem hi8_be16 (h l : Byte) : hi8 (be16 h l) = h := by
  rw [hi8, be16_eq_append, BitVec.extractLsb'_append_eq_left]

@[simp] theorem lo8_be16 (h l : Byte) : lo8 (be16 h l) = l := by
  rw [lo8, be16_eq_append, BitVec.extractLsb'_append_eq_right]

theorem be16_inj {h l h' l' : Byte} : be16 h l = be16 h' l' ↔ h = h' ∧ l = l' := by
  refine ⟨fun heq => ⟨?_, ?_⟩, fun ⟨hh, hl⟩ => by rw [hh, hl]⟩
  · simpa using congrArg hi8 heq
  · simpa using congrArg lo8 heq

/-! ### What `verifyCRC` cannot confuse -/

variable {data : List Byte} {h l : Byte}

theorem byte_eq_of_verifyCrc_set {k : Nat} {b : Byte} (hok : verifyCrc data h l = true) (hk : k < data.length)
    (hset : verifyCrc (data.set k b) h l = true) : b = byteAt data k := by
  rw [verifyCrc_eq_true_iff] at hok hset
  exact (crc16_set_inj hk).1 (by rw [hset, set_byteAt_self, hok])

theorem received_eq_of_verifyCrc {h' l' : Byte} (hok : verifyCrc data h l = true)
    (hok' : verifyCrc data h' l' = true) : h' = h ∧ l' = l := by
  rw [verifyCrc_eq_true_iff] at hok hok'
  exact be16_inj.1 (hok'.symm.trans hok)

theorem xor_bit_ne (x : Byte) {b : Nat} (hb : b < 8) : x ^^^ (1#8 <<< b) ≠ x := by
  intro heq
  simpa [hb] using congrArg (·.getLsbD b) heq

end Sys2Proof.Machine

namespace Sys2Proof

open Machine

/-- Settles O4: a flip changes a byte, and neither a changed data byte nor a changed received byte is accepted with the
rest unchanged. -/
theorem singleBitFlipFailsVerification : Obligations.SingleBitFlipFailsVerification := by
  intro data crcMSB crcLSB
  refine ⟨verifyCrc_eq_true_iff, fun hok =>
    ⟨fun k b hk hb => Bool.eq_false_iff.2 fun hflip => ?data,
      fun b hb => ⟨Bool.eq_false_iff.2 fun hflip => ?msb, Bool.eq_false_iff.2 fun hflip => ?lsb⟩⟩⟩
  case data => exact xor_bit_ne _ hb (byte_eq_of_verifyCrc_set hok hk hflip)
  case msb => exact xor_bit_ne _ hb (received_eq_of_verifyCrc hok hflip).1
  case lsb => exact xor_bit_ne _ hb (received_eq_of_verifyCrc hok hflip).2

/-- Settles O1: one byte more is one pass of the outer loop, whose inner loop is the iterated shift. -/
theorem crcFollowsByteLoop : Obligations.CrcFollowsByteLoop := by
  refine ⟨rfl, fun data b => ?_⟩
  rw [crc16_append, crcByte_eq_iterate]
  rfl

/-- Settles O3: `be16` is the expression rule R81 writes out. -/
theorem verifyCrcComparesAllBits : Obligations.VerifyCrcComparesAllBits := by
  intro data crcMSB crcLSB
  rw [verifyCrc_eq_true_iff, be16]

end Sys2Proof

/-! The Frame Validator (spec/41_frame_validator.md): the three checks of rule R90 read off the frame's own bytes, and the
step of rule R96, which for a rejected frame is a drop and nothing else. -/

namespace Sys2Proof.Machine

variable {cfg : Config} {f : List Byte} {s t : State} {cause : DropCause} {fc : Byte}

/-! ### The checks, on the bytes of the frame -/

/-- Inside the buffer `byteAt` is the byte the buffer holds. -/
theorem getElem?_eq_some_iff_eq_byteAt {i : Nat} (hi : i < f.length) {b : Byte} :
    f[i]? = some b ↔ b = byteAt f i := by
  simp [byteAt, hi, eq_comm]

theorem trailerBytes_of_msbFirst (hmsb : cfg.reqCrcMsbFirst = true) :
    trailerBytes cfg f = (byteAt f (f.length - 2), byteAt f (f.length - 1)) :=
  if_pos hmsb

/-- Rule R90's three checks for a trailer with its high byte first: every byte they name is inside a frame that passes the
length check. -/
theorem validate_eq_none_iff_of_msbFirst (hmsb : cfg.reqCrcMsbFirst = true) : validate cfg f = none ↔
    8 ≤ f.length ∧ f[0]? = some cfg.slaveId ∧
      ∃ h l : Byte, f[f.length - 2]? = some h ∧ f[f.length - 1]? = some l ∧
        crc16 (f.take (f.length - 2)) = be16 h l := by
  rw [validate_eq_none_iff, requestCrcOk_iff, trailerBytes_of_msbFirst hmsb]
  refine and_congr_right fun hlen => and_congr ?address ?crc
  case address => rw [getElem?_eq_some_iff_eq_byteAt (by omega), eq_comm]
  case crc =>
    have hhigh : f.length - 2 < f.length := by omega
    have hlow : f.length - 1 < f.length := by omega
    simp only [getElem?_eq_some_iff_eq_byteAt hhigh, getElem?_eq_some_iff_eq_byteAt hlow, exists_and_left,
      exists_eq_left]

/-! ### The transaction of a frame -/

/-- With a legal configuration and a frame that fits the buffer, the step is the frame's transaction. -/
theorem step_of_presented (hlegal : s.cfg.legal = true) (hreq : s.req = some f) (hfits : f.length ≤ 256) :
    step s = transact f s := by
  unfold step process
  rw [if_pos hlegal, hreq]
  exact if_pos (frameFits_iff.2 hfits)

/-- A rejected frame reaches no handler. -/
theorem transact_of_rejected (hv : validate s.cfg f = some cause) :
    transact f s = .next (dropped s.begin cause) := by
  unfold transact
  rw [decode_eq_error_iff.2 hv]
  rfl

/-- The map of rule R61 answers `ILLFC` only after each of the four supported codes has failed to match. -/
theorem dispatchFrame_eq_illfc (h : dispatchFrame f = .illfc fc) :
    fc = byteAt f 1 ∧ fc ∉ [0x01#8, 0x03#8, 0x05#8, 0x06#8] := by
  simp only [dispatchFrame] at h
  split_ifs at h with hrdcoil hrdhr hwrcoil hwrreg
  cases h
  exact ⟨rfl, by simp [hrdcoil, hrdhr, hwrcoil, hwrreg]⟩

/-- No handler takes the exception: they answer or drop. -/
theorem exec_exceptionFrame {i : Instr} (h : exec i s = .next t) (hstatus : t.status = .exceptionFrame) :
    ∃ fc, i = .illfc fc := by
  cases i with
  | illfc fc => exact ⟨fc, rfl⟩
  | rdcoil start count => obtain ⟨-, rfl⟩ | ⟨-, rfl⟩ | ⟨-, -, -, -, rfl⟩ := execRdcoil_cases h <;> simp at hstatus
  | rdhr start count => obtain ⟨-, rfl⟩ | ⟨-, rfl⟩ := execRdhr_cases h <;> simp at hstatus
  | wrcoil addr value =>
    obtain ⟨-, rfl⟩ | ⟨-, rfl⟩ | ⟨b, -, -, -, rfl⟩ | ⟨b, -, -, -, rfl⟩ := execWrcoil_cases h <;> simp at hstatus
  | wrreg addr value => obtain ⟨-, rfl⟩ | ⟨-, -, rfl⟩ | ⟨-, -, rfl⟩ := execWrreg_cases h <;> simp at hstatus

/-- A transaction ends in an exception response only when the frame is accepted and its function code is unsupported. -/
theorem transact_exceptionFrame (h : transact f s = .next t) (hstatus : t.status = .exceptionFrame) :
    validate s.cfg f = none ∧ ∃ fc, f[1]? = some fc ∧ fc ∉ [0x01#8, 0x03#8, 0x05#8, 0x06#8] := by
  obtain ⟨c, -, rfl⟩ | ⟨i, hdecode, hexec⟩ := transact_cases h
  · simp at hstatus
  · obtain ⟨hv, hi⟩ := decode_eq_ok_iff.1 hdecode
    obtain ⟨fc, rfl⟩ := exec_exceptionFrame hexec hstatus
    obtain ⟨hfc, hunsupported⟩ := dispatchFrame_eq_illfc hi.symm
    have hlen := validate_none_length hv
    exact ⟨hv, fc, (getElem?_eq_some_iff_eq_byteAt (by omega)).2 hfc, hunsupported⟩

end Sys2Proof.Machine

namespace Sys2Proof

open Machine

/-- Settles O8: the checks on the frame's own bytes; an accepted frame is decoded by the dispatcher's map, and the
transaction of any other is the drop with the validator's cause. -/
theorem frameAcceptedExactlyWhenThreeChecksPass : Obligations.FrameAcceptedExactlyWhenThreeChecksPass := by
  intro cfg f hmsb
  refine ⟨validate_eq_none_iff_of_msbFirst hmsb, fun hv => decode_eq_ok_iff.2 ⟨hv, rfl⟩, ?_⟩
  rintro s rfl hrejected
  obtain ⟨cause, hv⟩ := Option.ne_none_iff_exists'.1 hrejected
  exact ⟨_, cause, transact_of_rejected hv, rfl, rfl⟩

/-- Settles O10: the step is the frame's transaction, which drops a rejected frame, and takes the exception only for an
accepted one. -/
theorem rejectedFrameProducesNothing : Obligations.RejectedFrameProducesNothing := by
  intro s f hlegal hreq hfits
  rw [step_of_presented hlegal hreq hfits]
  exact ⟨fun cause hv => transact_of_rejected hv, fun t => transact_exceptionFrame⟩

end Sys2Proof

/-! The Function Dispatcher (spec/42_dispatcher.md): byte 1 of an accepted frame selects the request (rule R101), an
unsupported one takes the exception (rule R102), and what it selects ends in one of the results of rule R104. -/

namespace Sys2Proof.Machine

variable {cfg : Config} {f : List Byte} {s t : State} {i : Instr} {fc : Byte} {start count addr value : Word}

/-! ### The request an accepted frame selects -/

/-- The six bytes the dispatcher looks at are there in every accepted frame. -/
theorem eq_cons_six_of_validate_none (hv : validate cfg f = none) :
    ∃ id fc a b c d rest, f = id :: fc :: a :: b :: c :: d :: rest := by
  have hlen := validate_none_length hv
  match f, hlen with
  | id :: fc :: a :: b :: c :: d :: rest, _ => exact ⟨id, fc, a, b, c, d, rest, rfl⟩

/-- The map of rule R61, with the bytes it reads named. -/
theorem dispatchFrame_cons_six (id fc a b c d : Byte) (rest : List Byte) :
    dispatchFrame (id :: fc :: a :: b :: c :: d :: rest) =
      if fc = 0x01#8 then .rdcoil (be16 a b) (be16 c d)
      else if fc = 0x03#8 then .rdhr (be16 a b) (be16 c d)
      else if fc = 0x05#8 then .wrcoil (be16 a b) (be16 c d)
      else if fc = 0x06#8 then .wrreg (be16 a b) (be16 c d)
      else .illfc fc := rfl

/-- No argument byte is looked at before an unsupported code is found to be one. -/
theorem dispatchFrame_of_unsupported (hbyte : f[1]? = some fc)
    (hunsupported : fc ∉ [0x01#8, 0x03#8, 0x05#8, 0x06#8]) : dispatchFrame f = .illfc fc := by
  obtain ⟨hlen, -⟩ := List.getElem?_eq_some_iff.1 hbyte
  obtain rfl := (getElem?_eq_some_iff_eq_byteAt hlen).1 hbyte
  simp only [List.mem_cons, List.not_mem_nil, or_false, not_or] at hunsupported
  obtain ⟨hrdcoil, hrdhr, hwrcoil, hwrreg⟩ := hunsupported
  simp only [dispatchFrame, if_neg hrdcoil, if_neg hrdhr, if_neg hwrcoil, if_neg hwrreg]

/-- The transaction of an accepted frame is the meaning of the request it selects. -/
theorem transact_of_accepted (hv : validate s.cfg f = none) : transact f s = exec (dispatchFrame f) s.begin := by
  unfold transact
  rw [decode_eq_ok_iff.2 ⟨hv, rfl⟩]

/-! ### The exception response -/

/-- While a frame is presented a step can only be its transaction. -/
theorem transact_of_step (hreq : s.req = some f) (h : step s = .next t) : transact f s = .next t := by
  obtain ⟨-, ⟨g, hg, -, htransact⟩ | ⟨hnone, -⟩ | ⟨_, _, hnone, -⟩ | ⟨_, _, hnone, -⟩ | ⟨_, hnone, -⟩⟩ := step_cases h
  case inl => cases hreq.symm.trans hg; exact htransact
  all_goals cases hreq.symm.trans hnone

/-- The Exception Builder is the only source of an exception response, and writes one exception code. -/
theorem transact_exceptionCode (h : transact f s = .next t) (hstatus : t.status = .exceptionFrame) :
    t.rsp[2]? = some 0x01#8 := by
  obtain ⟨c, -, rfl⟩ | ⟨i, -, hexec⟩ := transact_cases h
  · simp at hstatus
  · obtain ⟨fc, rfl⟩ := exec_exceptionFrame hexec hstatus
    obtain rfl := execIllfc_cases hexec
    rfl

/-! ### The two results of a handler (rule R104) -/

/-- What the handler of `i` leaves behind: the request is consumed, and either a framed payload is the response, or there
is none and the cause is one of the handler's own. -/
def HandlerResult (i : Instr) (t : State) : Prop :=
  t.req = none ∧
    ((∃ payload, t.rsp = framed payload ∧ t.outcome = some (.respond t.rsp)) ∨
      ∃ cause, t.rsp = [] ∧ t.outcome = some (.noResponse cause) ∧ cause ∈ handlerCauses i)

theorem handlerResult_respond (i : Instr) (s : State) (p : List Byte) : HandlerResult i (s.respond p) :=
  ⟨rfl, .inl ⟨p, rfl, rfl⟩⟩

theorem handlerResult_echo (i : Instr) (s : State) : HandlerResult i s.echo := handlerResult_respond i s _

theorem handlerResult_dropped (s : State) {cause : DropCause} (hc : cause ∈ handlerCauses i) :
    HandlerResult i (dropped s cause) :=
  ⟨rfl, .inr ⟨cause, rfl, rfl, hc⟩⟩

theorem execRdcoil_handlerResult (h : execRdcoil start count s = .next t) :
    HandlerResult (.rdcoil start count) t := by
  obtain ⟨-, rfl⟩ | ⟨-, rfl⟩ | ⟨-, -, -, -, rfl⟩ := execRdcoil_cases h
  case inl | inr.inl => exact handlerResult_dropped s (by simp [handlerCauses])
  case inr.inr => exact handlerResult_respond _ _ _

theorem execRdhr_handlerResult (h : execRdhr start count s = .next t) : HandlerResult (.rdhr start count) t := by
  obtain ⟨-, rfl⟩ | ⟨-, rfl⟩ := execRdhr_cases h
  case inl => exact handlerResult_dropped s (by simp [handlerCauses])
  case inr => exact handlerResult_respond _ _ _

theorem execWrcoil_handlerResult (h : execWrcoil addr value s = .next t) :
    HandlerResult (.wrcoil addr value) t := by
  obtain ⟨-, rfl⟩ | ⟨-, rfl⟩ | ⟨b, -, -, -, rfl⟩ | ⟨b, -, -, -, rfl⟩ := execWrcoil_cases h
  case inl | inr.inl | inr.inr.inr => exact handlerResult_dropped _ (by simp [handlerCauses])
  case inr.inr.inl => exact handlerResult_echo _ _

theorem execWrreg_handlerResult (h : execWrreg addr value s = .next t) : HandlerResult (.wrreg addr value) t := by
  obtain ⟨-, rfl⟩ | ⟨-, -, rfl⟩ | ⟨-, -, rfl⟩ := execWrreg_cases h
  case inl => exact handlerResult_dropped s (by simp [handlerCauses])
  case inr.inl | inr.inr => exact handlerResult_echo _ _

/-- A count or a range that Read Coils refuses drops the frame; it does not stop the block. -/
theorem execRdcoil_answers (start count : Word) (s : State) : ∃ t, execRdcoil start count s = .next t := by
  unfold execRdcoil
  split
  · exact ⟨_, rfl⟩
  · split <;> exact ⟨_, rfl⟩

/-- A range that Read Holding Registers refuses drops the frame; it does not stop the block. -/
theorem execRdhr_answers (start count : Word) (s : State) : ∃ t, execRdhr start count s = .next t := by
  unfold execRdhr
  split <;> exact ⟨_, rfl⟩

/-- No request stops the block. -/
theorem exec_answers (i : Instr) (s : State) : ∃ t, exec i s = .next t := by
  cases i with
  | rdcoil start count => exact execRdcoil_answers start count s
  | rdhr start count => exact execRdhr_answers start count s
  | wrcoil addr value => exact execWrcoil_answers addr value s
  | wrreg addr value => exact execWrreg_answers addr value s
  | illfc fc => exact ⟨_, exec_illfc fc s⟩

end Sys2Proof.Machine

namespace Sys2Proof

open Machine

/-- Settles O14: an accepted frame is decoded by the dispatcher's map, whose six bytes its length provides; the address
check is the validator's. -/
theorem functionCodeSelectsRequest : Obligations.FunctionCodeSelectsRequest := by
  intro cfg f hv
  obtain ⟨id, fc, a, b, c, d, rest, rfl⟩ := eq_cons_six_of_validate_none hv
  obtain ⟨-, haddress, -⟩ := validate_eq_none_iff.1 hv
  refine ⟨id, fc, a, b, c, d, rest, rfl, haddress, ?_⟩
  rw [← dispatchFrame_cons_six id fc a b c d rest]
  exact decode_eq_ok_iff.2 ⟨hv, rfl⟩

/-- Settles O26: every kind answers a next state; what it is, each handler's own lemma says, and the Exception Builder
frames its payload. -/
theorem handlersEndInExactlyOneOutcome : Obligations.HandlersEndInExactlyOneOutcome := by
  intro i s
  obtain ⟨t, ht⟩ := exec_answers i s
  refine ⟨t, ht, ?_⟩
  cases i with
  | rdcoil start count => exact execRdcoil_handlerResult ht
  | rdhr start count => exact execRdhr_handlerResult ht
  | wrcoil addr value => exact execWrcoil_handlerResult ht
  | wrreg addr value => exact execWrreg_handlerResult ht
  | illfc fc =>
    obtain rfl := execIllfc_cases ht
    exact ⟨rfl, _, State.raiseIllegalFunction_rsp s fc, rfl⟩

/-- Settles O45: the frame selects `ILLFC`, whose meaning takes the exception; for any other frame the exception code is
the one the Exception Builder writes. -/
theorem unsupportedCodeGetsException : Obligations.UnsupportedCodeGetsException := by
  intro s f fc hlegal hreq hfits hv hbyte hunsupported
  refine ⟨?response, framed_length _, fun t g hstep => transact_exceptionCode (transact_of_step rfl hstep)⟩
  case response =>
    rw [step_of_presented hlegal hreq hfits, transact_of_accepted hv, dispatchFrame_of_unsupported hbyte hunsupported,
      exec_illfc]
    rfl

end Sys2Proof

/-! Read Holding Registers (spec/43_read_handlers.md rule R112): the values it answers are the register file's own, high
byte first, and a range beyond the file is dropped. -/

namespace Sys2Proof.Machine

variable {s : State} {start count : Word}

/-- The two bytes of a register, as the shift and the truncations of the word. -/
theorem be16Bytes_eq_setWidth (v : Word) : be16Bytes v = [(v >>> 8).setWidth 8, v.setWidth 8] := by
  have hhigh : hi8 v = (v >>> 8).setWidth 8 := rfl
  have hlow : lo8 v = v.setWidth 8 := by rw [lo8, BitVec.setWidth_eq_extractLsb' (by decide)]
  rw [be16Bytes, hhigh, hlow]

/-- Inside the register file, the registers read are its own entries. -/
theorem State.readHrs_getElem?_eq_hr {i n k : Nat} (hk : k < n) (hin : i + n ≤ s.hr.length) :
    (s.readHrs i n)[k]? = s.hr[i + k]? := by
  rw [s.readHrs_getElem? i hk, State.hr_getElem?_eq_readHr (by omega)]

/-- Registers beyond the file are not read: the frame is dropped. -/
theorem execRdhr_of_lt (h : s.cfg.numRegisters < start.toNat + count.toNat) :
    execRdhr start count s = .next (dropped s .range) := if_pos h

end Sys2Proof.Machine

namespace Sys2Proof

open Machine

/-- Settles O31: the values are the registers read, which the range check keeps inside the register file. -/
theorem readRegistersAnswersOrDrops : Obligations.ReadRegistersAnswersOrDrops := by
  intro s start count hhr
  refine ⟨fun hrange => ?answers, fun hbeyond => ?drops⟩
  case answers =>
    refine ⟨s.readHrs start.toNat count.toNat, State.readHrs_length _ _ _,
      fun k hk => State.readHrs_getElem?_eq_hr hk (hhr ▸ hrange), ?_⟩
    rw [exec_rdhr, execRdhr_of_le hrange, readPayload, registerData_length, Nat.mul_comm, registerData,
      funext be16Bytes_eq_setWidth]
    rfl
  case drops => rw [exec_rdhr, execRdhr_of_lt hbeyond]

end Sys2Proof

/-! The echo of the write handlers (spec/44_write_handlers.md rule R123): a handler that answers copies `req[0..6)` into the
payload, and an accepted frame holds those six bytes, the slave id and the function code first. -/

namespace Sys2Proof.Machine

variable {s t : State} {cfg : Config} {f : List Byte} {i : Instr} {addr value : Word}

/-! ### The bytes echoed -/

theorem exec_wrcoil (addr value : Word) (s : State) : exec (.wrcoil addr value) s = execWrcoil addr value s := rfl

theorem exec_wrreg (addr value : Word) (s : State) : exec (.wrreg addr value) s = execWrreg addr value s := rfl

theorem State.reqBytes_of_req (hreq : s.req = some f) : s.reqBytes = f := by
  simp only [State.reqBytes, hreq, Option.getD_some]

/-- Write Single Coil answers only after a read-back that agrees, and the backend calls leave the request buffer alone. -/
theorem execWrcoil_echoes (h : execWrcoil addr value s = .next t) (hstatus : t.status = .respond) :
    t.rsp = framed (s.reqBytes.take 6) := by
  obtain ⟨-, rfl⟩ | ⟨-, rfl⟩ | ⟨b, -, -, -, rfl⟩ | ⟨b, -, -, -, rfl⟩ := execWrcoil_cases h
  case inl | inr.inl | inr.inr.inr => simp at hstatus
  case inr.inr.inl => simp only [State.echo_rsp, State.coilRead_reqBytes, State.coilWrite_reqBytes]

/-- Write Single Register answers with the echo whether it stores or not. -/
theorem execWrreg_echoes (h : execWrreg addr value s = .next t) (hstatus : t.status = .respond) :
    t.rsp = framed (s.reqBytes.take 6) := by
  obtain ⟨-, rfl⟩ | ⟨-, -, rfl⟩ | ⟨-, -, rfl⟩ := execWrreg_cases h
  case inl => simp at hstatus
  case inr.inl => rw [State.echo_rsp, State.writeHr_reqBytes]
  case inr.inr => exact s.echo_rsp

/-- Before its CRC the echo holds the request's own bytes. -/
theorem framed_take_getElem? {n k : Nat} (hk : k < n) (hn : n ≤ f.length) : (framed (f.take n))[k]? = f[k]? := by
  rw [framed_getElem?_of_lt (by rw [List.length_take]; omega), List.getElem?_take_of_lt hk]

/-! ### The slave id and the function code of an accepted frame -/

/-- The map of rule R61 selects a request by its function code. -/
theorem dispatchFrame_code (f : List Byte) : (dispatchFrame f).code = byteAt f 1 := by
  simp only [dispatchFrame]
  split_ifs with hrdcoil hrdhr hwrcoil hwrreg
  · exact hrdcoil.symm
  · exact hrdhr.symm
  · exact hwrcoil.symm
  · exact hwrreg.symm
  · rfl

/-- Rule R63: the first two bytes of a decoded frame are the slave id and the function code of what it decodes to. -/
theorem decode_header (h : decode cfg f = .ok i) : f[0]? = some cfg.slaveId ∧ f[1]? = some i.code := by
  obtain ⟨hv, rfl⟩ := decode_eq_ok_iff.1 h
  obtain ⟨hlen, haddress, -⟩ := validate_eq_none_iff.1 hv
  exact ⟨(getElem?_eq_some_iff_eq_byteAt (by omega)).2 haddress.symm,
    (getElem?_eq_some_iff_eq_byteAt (by omega)).2 (dispatchFrame_code f)⟩

/-- The transaction of a decoded frame is the meaning of its request. -/
theorem exec_of_transact (hdecode : decode s.cfg f = .ok i) (h : transact f s = .next t) :
    exec i s.begin = .next t := by
  obtain ⟨hv, rfl⟩ := decode_eq_ok_iff.1 hdecode
  rw [← transact_of_accepted hv, h]

/-- A write request that is answered is answered with the six bytes of the request buffer, framed. -/
theorem transact_echoes (hreq : s.req = some f)
    (hdecode : decode s.cfg f = .ok (.wrcoil addr value) ∨ decode s.cfg f = .ok (.wrreg addr value))
    (h : transact f s = .next t) (hstatus : t.status = .respond) : t.rsp = framed (f.take 6) := by
  rw [← State.reqBytes_of_req hreq, ← State.begin_reqBytes]
  obtain hcoil | hregister := hdecode
  · exact execWrcoil_echoes (exec_wrcoil addr value s.begin ▸ exec_of_transact hcoil h) hstatus
  · exact execWrreg_echoes (exec_wrreg addr value s.begin ▸ exec_of_transact hregister h) hstatus

end Sys2Proof.Machine

namespace Sys2Proof

open Machine

/-- Settles O42: the step is the frame's transaction, whose response is the echo; the frame is accepted, so it is long
enough to be copied from and its first two bytes are the slave id and the request's function code. -/
theorem echoCopiesSixRequestBytes : Obligations.EchoCopiesSixRequestBytes := by
  intro s t f addr value hreq hdecode hstep hstatus
  have hrsp := transact_echoes hreq hdecode (transact_of_step hreq hstep) hstatus
  obtain ⟨i, hi⟩ : ∃ i, decode s.cfg f = .ok i := hdecode.elim (⟨_, ·⟩) (⟨_, ·⟩)
  have hlen := validate_none_length (decode_eq_ok_iff.1 hi).1
  have hbytes : ∀ k, k < 6 → t.rsp[k]? = f[k]? := fun k hk => hrsp ▸ framed_take_getElem? hk (by omega)
  refine ⟨hrsp, hbytes, ?slaveId, fun hcoil => ?coil, fun hregister => ?register⟩
  case slaveId => rw [hbytes 0 (by decide), (decode_header hi).1]
  case coil => rw [hbytes 1 (by decide), (decode_header hcoil).2, Instr.code]
  case register => rw [hbytes 1 (by decide), (decode_header hregister).2, Instr.code]

end Sys2Proof

/-! The Response Framer (spec/45_response_framer.md rule R130): the trailer is the CRC of the payload, low byte first, and
nothing but the response buffer is written. -/

namespace Sys2Proof.Machine

/-- The trailer's two bytes, as the truncations of the CRC and of the CRC shifted. -/
theorem framed_eq_append_setWidth (payload : List Byte) :
    framed payload = payload ++ [(crc16 payload).setWidth 8, (crc16 payload >>> 8).setWidth 8] := by
  obtain ⟨hhigh, hlow⟩ := List.cons_eq_cons.1 (be16Bytes_eq_setWidth (crc16 payload))
  rw [framed, hhigh, List.head_eq_of_cons_eq hlow]

/-- The payload that was in the response buffer before has no part in the result, and nothing else changes. -/
theorem State.frameResponse_writePayload (s : State) (payload : List Byte) :
    (s.writePayload payload).frameResponse = { s with rsp := framed payload } := rfl

end Sys2Proof.Machine

namespace Sys2Proof

open Machine

/-- Settles O7: only the response buffer is written, and what it then holds is the framed payload. -/
theorem framerAppendsCrcLowByteFirst : Obligations.FramerAppendsCrcLowByteFirst := by
  intro s payload
  rw [State.frameResponse_writePayload]
  refine ⟨?bytes, ?length⟩
  case bytes => rw [framed_eq_append_setWidth]
  case length => exact framed_length payload

end Sys2Proof

/-! The frame as bytes before a trailer (spec/30_encoding.md rules R50, R53): the validator accepts exactly the frames
`withTrailer` makes of at least six bytes that begin with the slave id, and the dispatcher's map reads back the code and the
four argument bytes that `encodePadded` writes. Both directions of the round trip follow. -/

namespace Sys2Proof.Machine

variable {cfg : Config} {f covered : List Byte} {x y : Byte} {i : Instr}

/-! ### 16-bit fields -/

theorem be16_hi8_lo8 (v : Word) : be16 (hi8 v) (lo8 v) = v := by
  rw [be16_eq_append, hi8, lo8, BitVec.extractLsb'_append_extractLsb'_eq_extractLsb' (by decide)]
  exact BitVec.extractLsb'_eq_self

theorem be16_toNat (h l : Byte) : (be16 h l).toNat = 256 * h.toNat + l.toNat := by
  rw [be16_eq_append, BitVec.toNat_append, ← Nat.shiftLeft_add_eq_or_of_lt l.isLt, Nat.shiftLeft_eq, Nat.mul_comm]

/-! ### The trailer -/

/-- The CRC two trailer bytes stand for, first byte first, under either setting of `REQ_CRC_MSB_FIRST`. -/
def receivedCrc (cfg : Config) (first second : Byte) : Word :=
  if cfg.reqCrcMsbFirst then be16 first second else be16 second first

theorem receivedCrc_inj {x' y' : Byte} : receivedCrc cfg x y = receivedCrc cfg x' y' ↔ x = x' ∧ y = y' := by
  unfold receivedCrc
  split
  · exact be16_inj
  · exact be16_inj.trans and_comm

@[simp] theorem byteAt_append_pair_first : byteAt (covered ++ [x, y]) covered.length = x := by simp [byteAt]

@[simp] theorem byteAt_append_pair_second : byteAt (covered ++ [x, y]) (covered.length + 1) = y := by simp [byteAt]

/-- The validator's CRC check compares the CRC of all bytes but the last two with those two. -/
theorem requestCrcOk_append_pair : requestCrcOk cfg (covered ++ [x, y]) = true ↔ crc16 covered = receivedCrc cfg x y := by
  have htrailer : be16 (trailerBytes cfg (covered ++ [x, y])).1 (trailerBytes cfg (covered ++ [x, y])).2 =
      receivedCrc cfg x y := by
    unfold trailerBytes receivedCrc
    split <;> simp
  rw [requestCrcOk_iff, htrailer]
  simp

/-- The encoder's trailer is the pair of bytes that stands for the CRC. -/
theorem withTrailer_eq_append_pair_iff : withTrailer cfg covered = covered ++ [x, y] ↔
    crc16 covered = receivedCrc cfg x y := by
  conv_rhs => rw [← be16_hi8_lo8 (crc16 covered)]
  unfold withTrailer receivedCrc
  rw [List.append_cancel_left_eq]
  split
  · simp [be16_inj]
  · simp [be16_inj, and_comm]

theorem eq_append_pair (hlen : 2 ≤ f.length) : ∃ x y, f = f.take (f.length - 2) ++ [x, y] := by
  have htwo : (f.drop (f.length - 2)).length = 2 := by rw [List.length_drop]; omega
  obtain ⟨x, y, hxy⟩ := List.length_eq_two.1 htwo
  exact ⟨x, y, by rw [← hxy, List.take_append_drop]⟩

/-- The CRC check passes exactly on the frames whose last two bytes the encoder would have written. -/
theorem requestCrcOk_iff_eq_withTrailer (hlen : 2 ≤ f.length) :
    requestCrcOk cfg f = true ↔ f = withTrailer cfg (f.take (f.length - 2)) := by
  obtain ⟨x, y, hf⟩ := eq_append_pair hlen
  generalize f.take (f.length - 2) = covered at hf
  subst hf
  rw [requestCrcOk_append_pair, eq_comm (b := withTrailer _ _), withTrailer_eq_append_pair_iff]

theorem withTrailer_take (cfg : Config) (covered : List Byte) :
    (withTrailer cfg covered).take ((withTrailer cfg covered).length - 2) = covered := by
  rw [Laws.withTrailer_length]
  exact List.take_left

/-- Rule R63, frames as the encoder writes them: at least six bytes, the slave id first, and their trailer. -/
theorem validate_withTrailer_iff :
    validate cfg (withTrailer cfg covered) = none ↔ 6 ≤ covered.length ∧ covered[0]? = some cfg.slaveId := by
  have hcrc : requestCrcOk cfg (withTrailer cfg covered) = true :=
    (requestCrcOk_iff_eq_withTrailer (by rw [Laws.withTrailer_length]; omega)).2 (by rw [withTrailer_take])
  have hbyte (hlen : 0 < covered.length) : byteAt (withTrailer cfg covered) 0 = byteAt covered 0 := by
    rw [withTrailer, byteAt, List.getD_append _ _ _ _ hlen, byteAt]
  rw [validate_eq_none_iff, Laws.withTrailer_length]
  refine ⟨fun ⟨hlen, hid, _⟩ => ⟨by omega, ?_⟩, fun ⟨hlen, hid⟩ => ⟨by omega, ?_, hcrc⟩⟩
  · rw [getElem?_eq_some_iff_eq_byteAt (by omega), ← hid, hbyte (by omega)]
  · rw [hbyte (by omega), (getElem?_eq_some_iff_eq_byteAt (by omega)).1 hid]

/-- An accepted frame is what the encoder makes of its own bytes before the trailer. -/
theorem eq_withTrailer_of_validate_none (hv : validate cfg f = none) :
    f = withTrailer cfg (f.take (f.length - 2)) := by
  obtain ⟨hlen, -, hcrc⟩ := validate_eq_none_iff.1 hv
  exact (requestCrcOk_iff_eq_withTrailer (by omega)).1 hcrc

/-! ### The request and its bytes -/

theorem Instr.wf_illfc_iff {fc : Byte} :
    (Instr.illfc fc).wf = true ↔ fc ∉ [0x01#8, 0x03#8, 0x05#8, 0x06#8] := by
  simp [Instr.wf, supportedCode, and_assoc]

/-- A well-formed request is what its function code and its four argument bytes select. -/
theorem dispatchFrame_code_args (hwf : i.wf = true) (id : Byte) (rest : List Byte) :
    dispatchFrame (id :: i.code :: (i.args ++ rest)) = i := by
  cases i with
  | rdcoil start count => exact congrArg₂ Instr.rdcoil (be16_hi8_lo8 start) (be16_hi8_lo8 count)
  | rdhr start count => exact congrArg₂ Instr.rdhr (be16_hi8_lo8 start) (be16_hi8_lo8 count)
  | wrcoil addr value => exact congrArg₂ Instr.wrcoil (be16_hi8_lo8 addr) (be16_hi8_lo8 value)
  | wrreg addr value => exact congrArg₂ Instr.wrreg (be16_hi8_lo8 addr) (be16_hi8_lo8 value)
  | illfc fc => exact dispatchFrame_of_unsupported rfl (Instr.wf_illfc_iff.1 hwf)

/-- The map of rule R61 answers `ILLFC` for no supported function code. -/
theorem dispatchFrame_wf (f : List Byte) : (dispatchFrame f).wf = true := by
  cases hi : dispatchFrame f with
  | illfc fc => exact Instr.wf_illfc_iff.2 (dispatchFrame_eq_illfc hi).2
  | rdcoil _ _ | rdhr _ _ | wrcoil _ _ | wrreg _ _ => rfl

/-- The operands of a supported request are the argument bytes, both fields big-endian. -/
theorem dispatchFrame_args {id fc a b c d : Byte} {rest : List Byte}
    (h : ∀ code, dispatchFrame (id :: fc :: a :: b :: c :: d :: rest) ≠ .illfc code) :
    (dispatchFrame (id :: fc :: a :: b :: c :: d :: rest)).args = [a, b, c, d] := by
  rw [dispatchFrame_cons_six] at h ⊢
  split_ifs at h ⊢ with hrdcoil hrdhr hwrcoil hwrreg
  case neg => exact absurd rfl (h fc)
  all_goals simp [Instr.args, be16Bytes]

theorem encodePadded_eq_withTrailer (cfg : Config) (i : Instr) (pad : List Byte) :
    encodePadded cfg i pad = withTrailer cfg (cfg.slaveId :: i.code :: (i.args ++ pad)) := rfl

theorem Instr.args_length (i : Instr) : i.args.length = 4 := by cases i <;> rfl

theorem validate_encodePadded (cfg : Config) (i : Instr) (pad : List Byte) :
    validate cfg (encodePadded cfg i pad) = none := by
  rw [encodePadded_eq_withTrailer, validate_withTrailer_iff]
  exact ⟨by simp [Instr.args_length], rfl⟩

/-- The trailer and the padding play no part in the selection. -/
theorem dispatchFrame_encodePadded (hwf : i.wf = true) (cfg : Config) (pad : List Byte) :
    dispatchFrame (encodePadded cfg i pad) = i := by
  rw [encodePadded_eq_withTrailer, withTrailer, List.cons_append, List.cons_append, List.append_assoc]
  exact dispatchFrame_code_args hwf _ _

/-- An accepted frame is the slave id, the code of its request, at least four bytes more, and the trailer. -/
theorem exists_eq_withTrailer_of_decode (h : decode cfg f = .ok i) :
    ∃ args, 4 ≤ args.length ∧ f = withTrailer cfg (cfg.slaveId :: i.code :: args) ∧
      ((∀ code, i ≠ .illfc code) → ∃ pad, args = i.args ++ pad) := by
  obtain ⟨hv, rfl⟩ := decode_eq_ok_iff.1 h
  have hf := eq_withTrailer_of_validate_none hv
  generalize f.take (f.length - 2) = covered at hf
  subst hf
  obtain ⟨hlen, hid⟩ := validate_withTrailer_iff.1 hv
  match covered, hlen with
  | id :: fc :: a :: b :: c :: d :: pad, _ =>
    obtain rfl : id = cfg.slaveId := by simpa using hid
    refine ⟨a :: b :: c :: d :: pad, by simp, ?_, fun hsupported => ⟨pad, ?_⟩⟩
    · rw [dispatchFrame_code]; rfl
    · exact congrArg (· ++ pad) (dispatchFrame_args hsupported).symm

end Sys2Proof.Machine

namespace Sys2Proof

open Machine

/-- Settles O12: the validator accepts every padded frame, and the dispatcher's map reads back the code and the argument
bytes. -/
theorem decodeEncodeGivesRequestBack : Obligations.DecodeEncodeGivesRequestBack := by
  intro cfg i pad hwf
  exact decode_eq_ok_iff.2 ⟨validate_encodePadded cfg i pad, (dispatchFrame_encodePadded hwf cfg pad).symm⟩

/-- Settles O13: the bytes of an accepted frame are named one by one; the four argument bytes of a supported request are
those its operands are split into. -/
theorem acceptedFrameIsItsRequestsEncoding : Obligations.AcceptedFrameIsItsRequestsEncoding := by
  intro cfg f i h
  obtain ⟨-, hi⟩ := decode_eq_ok_iff.1 h
  obtain ⟨args, hlen, hf, hargs⟩ := exists_eq_withTrailer_of_decode h
  refine ⟨hi ▸ dispatchFrame_wf f, ?_⟩
  cases i with
  | illfc fc => exact ⟨args, hlen, hf⟩
  | rdcoil _ _ | rdhr _ _ | wrcoil _ _ | wrreg _ _ =>
    obtain ⟨pad, rfl⟩ := hargs (by simp)
    exact ⟨pad, hf⟩

/-- Settles O15: a field is its high byte appended to its low byte. -/
theorem fieldsAreBigEndian : Obligations.FieldsAreBigEndian := by
  refine ⟨fun h l => ⟨be16_toNat h l, ?_⟩, be16_hi8_lo8⟩
  rw [be16Bytes, hi8_be16, lo8_be16]

/-- Settles O16: the five frames, the CRC of each included, are evaluated. -/
theorem sampleFramesDecode : Obligations.SampleFramesDecode := by
  refine ⟨?rdcoil, ?rdhr, ?wrcoil, ?wrreg, ?illfc⟩
  all_goals decide +kernel

end Sys2Proof

/-! What the CRC of spec/40_crc.md detects and what it does not: the bit-serial form of rule R85, the zero residue of a framed
response, and the validator's answer to a flipped bit and to a looped-back response. -/

namespace Sys2Proof.Machine

variable {cfg : Config} {f covered : List Byte} {b x y : Byte}

/-! ### The bit-serial form (rule R85) -/

/-- A message that waits in the register is shifted along with it, and its bit 0 decides the exclusive-or together with the
register's. -/
theorem crcShift_xor (crc w : Word) : crcShift (crc ^^^ w) = crcSerialBit crc (w.getLsbD 0) ^^^ (w >>> 1) := by
  unfold crcShift crcSerialBit
  rw [BitVec.getLsbD_xor, BitVec.ushiftRight_xor_distrib]
  split
  · rw [BitVec.xor_assoc, BitVec.xor_comm (w >>> 1), BitVec.xor_assoc]
  · rfl

/-- So `n` shifts take in the first `n` bits of the message, and leave the rest of it waiting. -/
theorem crcShifts_xor (n : Nat) (crc w : Word) :
    crcShifts n (crc ^^^ w) = ((List.range n).map w.getLsbD).foldl crcSerialBit crc ^^^ (w >>> n) := by
  induction n generalizing crc w with
  | zero => simp [crcShifts]
  | succ n ih =>
    have hbits : (List.range n).map (w >>> 1).getLsbD = (List.range n).map fun k => w.getLsbD (k + 1) := by
      simp [Nat.add_comm]
    rw [crcShifts, crcShift_xor, ih, hbits, ← BitVec.shiftRight_add, Nat.add_comm 1 n, List.range_succ_eq_map]
    simp [Function.comp_def]

/-- One byte of the bit-serial form is one pass of the outer loop: nothing of an 8-bit message waits after eight shifts. -/
theorem foldl_crcSerialBit_bitsLsbFirst (crc : Word) (b : Byte) :
    (bitsLsbFirst b).foldl crcSerialBit crc = crcByte crc b := by
  have hbits : (List.range 8).map (b.setWidth 16).getLsbD = bitsLsbFirst b := rfl
  have hrest : b.setWidth 16 >>> 8 = 0#16 := by
    apply BitVec.eq_of_getLsbD_eq
    simp
  rw [crcByte, crcShifts_xor, hbits, hrest, BitVec.xor_zero]

/-! ### The residue of a framed payload -/

/-- A shift that loses a 0 is a plain right shift. -/
theorem crcShifts_of_low_bits_zero {n : Nat} {crc : Word} (hzero : ∀ k < n, crc.getLsbD k = false) :
    crcShifts n crc = crc >>> n := by
  induction n generalizing crc with
  | zero => simp [crcShifts]
  | succ n ih =>
    have hshift : crcShift crc = crc >>> 1 := by rw [crcShift, hzero 0 (by omega), if_neg Bool.false_ne_true]
    have hrest : ∀ k < n, (crc >>> 1).getLsbD k = false := fun k hk => by
      simpa [Nat.add_comm] using hzero (k + 1) (by omega)
    rw [crcShifts, hshift, ih hrest, ← BitVec.shiftRight_add, Nat.add_comm]

/-- Taking in its own low byte leaves the register's high byte. -/
theorem crcByte_lo8 (crc : Word) : crcByte crc (lo8 crc) = (hi8 crc).setWidth 16 := by
  have hlow : ∀ k < 8, (crc ^^^ (lo8 crc).setWidth 16).getLsbD k = false := fun k hk => by
    simp [lo8, hk, Nat.lt_trans hk (by decide : 8 < 16)]
  rw [crcByte, crcShifts_of_low_bits_zero hlow]
  apply BitVec.eq_of_getLsbD_eq
  intro i hi
  by_cases hinside : i < 8
  · simp [lo8, hi8, hi, hinside]
  · simp [lo8, hi8, hinside, BitVec.getLsbD_of_ge crc (8 + i) (by omega)]

/-- Taking in all that it holds leaves the register empty. -/
theorem crcByte_setWidth (b : Byte) : crcByte (b.setWidth 16) b = 0#16 := by
  rw [crcByte, BitVec.xor_self]
  rfl

/-! ### The validator's answer for each check that fails -/

theorem validate_eq_short_iff : validate cfg f = some .short ↔ f.length < 8 := by
  unfold validate
  split_ifs <;> simp_all

theorem validate_eq_addr_iff : validate cfg f = some .addr ↔ 8 ≤ f.length ∧ byteAt f 0 ≠ cfg.slaveId := by
  unfold validate
  split_ifs <;> simp_all

theorem validate_eq_crc_iff : validate cfg f = some .crc ↔
    8 ≤ f.length ∧ byteAt f 0 = cfg.slaveId ∧ requestCrcOk cfg f = false := by
  unfold validate
  split_ifs <;> simp_all

/-! ### A frame with one byte changed -/

theorem byteAt_set_self {k : Nat} (hk : k < f.length) : byteAt (f.set k b) k = b := by simp [byteAt, hk]

theorem byteAt_set_of_ne {j k : Nat} (hne : k ≠ j) : byteAt (f.set k b) j = byteAt f j := by simp [byteAt, hne]

/-- Two frames that pass the CRC check and differ in one byte at most do not differ: a changed byte before the trailer
changes the CRC, and a changed byte of the trailer what it is compared with. -/
theorem byte_eq_of_requestCrcOk_set {k : Nat} (hlen : 2 ≤ f.length) (hk : k < f.length) (hok : requestCrcOk cfg f = true)
    (hset : requestCrcOk cfg (f.set k b) = true) : b = byteAt f k := by
  obtain ⟨x, y, hf⟩ := eq_append_pair hlen
  generalize f.take (f.length - 2) = covered at hf
  subst hf
  rw [requestCrcOk_append_pair] at hok
  obtain hdata | htrailer := Nat.lt_or_ge k covered.length
  · rw [List.set_append_left _ _ hdata, requestCrcOk_append_pair, ← hok] at hset
    rw [byteAt, List.getD_append _ _ _ _ hdata]
    exact (crc16_set_inj hdata).1 (by rw [hset]; exact congrArg crc16 (set_byteAt_self covered k).symm)
  · obtain rfl | rfl : k = covered.length ∨ k = covered.length + 1 := by
      simp only [List.length_append, List.length_cons, List.length_nil] at hk
      omega
    · rw [byteAt_append_pair_first]
      rw [List.set_append_right _ _ htrailer, Nat.sub_self, List.set_cons_zero, requestCrcOk_append_pair, hok,
        receivedCrc_inj] at hset
      exact hset.1.symm
    · rw [byteAt_append_pair_second]
      rw [List.set_append_right _ _ htrailer, Nat.add_sub_cancel_left, List.set_cons_succ, List.set_cons_zero,
        requestCrcOk_append_pair, hok, receivedCrc_inj] at hset
      exact hset.2.symm

end Sys2Proof.Machine

namespace Sys2Proof

open Machine

/-- Settles O2: byte by byte, eight message bits are one pass of the outer loop. -/
theorem crcBitSerialFormAgrees : Obligations.CrcBitSerialFormAgrees := by
  intro data
  simp only [crcSerial, crc16, List.foldl_flatMap, foldl_crcSerialBit_bitsLsbFirst]

/-- Settles O5: the flip changes a byte; in byte 0 the address check fails, elsewhere only the CRC check can. -/
theorem singleBitFlipDropsFrame : Obligations.SingleBitFlipDropsFrame := by
  intro cfg f k b hv hk hb
  obtain ⟨hlen, hid, hcrc⟩ := validate_eq_none_iff.1 hv
  have hne : byteAt f k ^^^ (1#8 <<< b) ≠ byteAt f k := xor_bit_ne _ hb
  split_ifs with hzero
  · subst hzero
    rw [validate_eq_addr_iff, byteAt_set_self hk, List.length_set]
    exact ⟨hlen, hid ▸ hne⟩
  · rw [validate_eq_crc_iff, byteAt_set_of_ne hzero, List.length_set]
    exact ⟨hlen, hid, Bool.eq_false_iff.2 fun hset => hne (byte_eq_of_requestCrcOk_set (by omega) hk hcrc hset)⟩

/-- Settles O6: the first trailer byte leaves the register's high byte, and the second takes it away. -/
theorem framedResponseHasZeroResidue : Obligations.FramedResponseHasZeroResidue := by
  intro payload
  calc crc16 (framed payload)
      = crcByte (crcByte (crc16 payload) (lo8 (crc16 payload))) (hi8 (crc16 payload)) := by
        rw [← crc16_append, ← crc16_append, framed, List.append_assoc]; rfl
    _ = 0#16 := by rw [crcByte_lo8, crcByte_setWidth]

/-- Settles O9: one equivalence for each cause; a frame of eight bytes has a byte 0. -/
theorem dropCauseIsFirstFailingCheck : Obligations.DropCauseIsFirstFailingCheck := by
  intro cfg f
  have haddress (hlen : 8 ≤ f.length) : f[0]? = some cfg.slaveId ↔ byteAt f 0 = cfg.slaveId := by
    rw [getElem?_eq_some_iff_eq_byteAt (by omega), eq_comm]
  refine ⟨validate_eq_short_iff, ?_, ?_⟩
  · rw [validate_eq_addr_iff]
    exact and_congr_right fun hlen => (haddress hlen).not.symm
  · rw [validate_eq_crc_iff]
    exact and_congr_right fun hlen => and_congr_left' (haddress hlen).symm

/-- Settles O11: a framed payload passes the length and the address check, and the CRC check compares its CRC with the one
whose bytes are exchanged. -/
theorem loopedBackResponseRejected : Obligations.LoopedBackResponseRejected := by
  intro cfg payload hmsb hlen hid
  have hbyte : byteAt (framed payload) 0 = cfg.slaveId := by
    rw [← framed_getElem?_of_lt (by omega), getElem?_eq_some_iff_eq_byteAt (by rw [framed_length]; omega)] at hid
    exact hid.symm
  have hcrc : requestCrcOk cfg (framed payload) = true ↔
      crc16 payload = be16 (lo8 (crc16 payload)) (hi8 (crc16 payload)) := by
    rw [framed, requestCrcOk_append_pair, receivedCrc, if_pos hmsb]
  have hexchanged (v : Word) : v = be16 (lo8 v) (hi8 v) ↔ hi8 v = lo8 v := by
    conv_lhs => lhs; rw [← be16_hi8_lo8 v]
    rw [be16_inj, eq_comm (a := lo8 v), and_self]
  rw [validate_eq_none_iff, framed_length, hcrc, hexchanged]
  exact ⟨fun h => h.2.2, fun h => ⟨by omega, hbyte, h⟩⟩

end Sys2Proof

/-! Who may change the Device Image (spec/10_state.md section 7), and the invariant of the machine. A handler's effect on the
image is read off its cases; that it leaves the buffers within capacity and the response framed follows from the operation
the transaction ends with: an answer, an exception response or a drop. -/

namespace Sys2Proof.Machine

variable {s t : State} {f : List Byte} {i : Instr} {start count addr value : Word} {on : Bool}

/-! ### What each kind leaves unchanged -/

@[simp] theorem dropped_cfg (s : State) (cause : DropCause) : (dropped s cause).cfg = s.cfg := rfl
@[simp] theorem dropped_line (s : State) (cause : DropCause) : (dropped s cause).line = s.line := rfl

/-- The kinds that write to no file of the image. -/
theorem execRdcoil_frame (h : execRdcoil start count s = .next t) : sameImage s t ∧ t.line = s.line := by
  obtain ⟨-, rfl⟩ | ⟨-, rfl⟩ | ⟨-, -, -, -, rfl⟩ := execRdcoil_cases h
  case inl | inr.inl => exact ⟨⟨rfl, rfl, rfl⟩, rfl⟩
  case inr.inr => simp [sameImage]

theorem execRdhr_frame (h : execRdhr start count s = .next t) : sameImage s t ∧ t.line = s.line := by
  obtain ⟨-, rfl⟩ | ⟨-, rfl⟩ := execRdhr_cases h
  all_goals exact ⟨⟨rfl, rfl, rfl⟩, rfl⟩

theorem execIllfc_frame {fc : Byte} (h : execIllfc fc s = .next t) : sameImage s t ∧ t.line = s.line := by
  obtain rfl := execIllfc_cases h
  exact ⟨⟨rfl, rfl, rfl⟩, rfl⟩

theorem execWrcoil_frame (h : execWrcoil addr value s = .next t) : t.cfg = s.cfg ∧ t.line = s.line := by
  obtain ⟨-, rfl⟩ | ⟨-, rfl⟩ | ⟨b, -, -, -, rfl⟩ | ⟨b, -, -, -, rfl⟩ := execWrcoil_cases h
  all_goals simp

theorem execWrreg_frame (h : execWrreg addr value s = .next t) : t.cfg = s.cfg ∧ t.line = s.line := by
  obtain ⟨-, rfl⟩ | ⟨-, -, rfl⟩ | ⟨-, -, rfl⟩ := execWrreg_cases h
  all_goals exact ⟨rfl, rfl⟩

theorem exec_frame (h : exec i s = .next t) : t.cfg = s.cfg ∧ t.line = s.line := by
  cases i with
  | rdcoil start count => exact (execRdcoil_frame h).imp_left And.left
  | rdhr start count => exact (execRdhr_frame h).imp_left And.left
  | wrcoil addr value => exact execWrcoil_frame h
  | wrreg addr value => exact execWrreg_frame h
  | illfc fc => exact (execIllfc_frame h).imp_left And.left

/-! ### What the two write handlers may change -/

/-- Rule R54: two of the 65536 values are valid, and 0xFF00 is on. -/
theorem decodeCoilValue_eq_some_iff : decodeCoilValue value = some on ↔
    value = if on then 0xFF00#16 else 0x0000#16 := by
  unfold decodeCoilValue Config.coilOnValue Config.coilOffValue
  cases on <;> split_ifs <;> simp_all

theorem decodeCoilValue_eq_none_iff : decodeCoilValue value = none ↔ value ≠ 0xFF00#16 ∧ value ≠ 0x0000#16 := by
  unfold decodeCoilValue Config.coilOnValue Config.coilOffValue
  split_ifs <;> simp_all

/-- The table of section 7: a request leaves the image as it was, or is a Write Single Coil whose value and address pass,
which sets that coil, or a Write Single Register whose address passes where registers are stored, which sets that
register. -/
theorem exec_image_cases (h : exec i s = .next t) :
    sameImage s t ∨
    (∃ addr value b, i = .wrcoil addr value ∧ addr.toNat < s.cfg.numCoils ∧ (value = 0xFF00#16 ∨ value = 0x0000#16) ∧
      t.hr = s.hr ∧ t.coil = s.coil.set addr.toNat b) ∨
    (∃ addr value, i = .wrreg addr value ∧ addr.toNat < s.cfg.numRegisters ∧ s.cfg.wrRegStore = true ∧
      t.hr = s.hr.set addr.toNat value ∧ t.coil = s.coil) := by
  have hvalid {value : Word} {b : Bool} (hb : decodeCoilValue value = some b) :
      value = 0xFF00#16 ∨ value = 0x0000#16 := by
    rw [decodeCoilValue_eq_some_iff] at hb
    cases b
    · exact .inr hb
    · exact .inl hb
  cases i with
  | rdcoil start count => exact .inl (execRdcoil_frame h).1
  | rdhr start count => exact .inl (execRdhr_frame h).1
  | wrcoil addr value =>
    have hhr := execWrcoil_hr h
    have hset (b : Bool) : ((s.coilWrite addr.toNat b).coilRead addr.toNat).coil =
        s.coil.set addr.toNat (if s.cfg.backend = .oracle then Config.freeCoilAfterWrite s.draws else b) := by
      rw [State.coilRead_coil, State.coilWrite_coil]
    obtain ⟨-, rfl⟩ | ⟨-, rfl⟩ | ⟨b, hb, haddr, -, rfl⟩ | ⟨b, hb, haddr, -, rfl⟩ := execWrcoil_cases h
    case inl | inr.inl => exact .inl ⟨rfl, rfl, rfl⟩
    case inr.inr.inl | inr.inr.inr => exact .inr (.inl ⟨addr, value, _, rfl, haddr, hvalid hb, hhr, hset b⟩)
  | wrreg addr value =>
    obtain ⟨-, rfl⟩ | ⟨haddr, hstore, rfl⟩ | ⟨-, -, rfl⟩ := execWrreg_cases h
    case inl | inr.inr => exact .inl ⟨rfl, rfl, rfl⟩
    case inr.inl => exact .inr (.inr ⟨addr, value, rfl, haddr, hstore, rfl, rfl⟩)
  | illfc fc => exact .inl (execIllfc_frame h).1

theorem exec_file_lengths (h : exec i s = .next t) :
    t.hr.length = s.hr.length ∧ t.coil.length = s.coil.length := by
  obtain ⟨-, hhr, hcoil⟩ | ⟨_, _, b, -, -, -, hhr, hcoil⟩ | ⟨_, _, -, -, -, hhr, hcoil⟩ := exec_image_cases h
  all_goals simp only [hhr, hcoil, List.length_set, and_self]

/-- A cell that reads differently after one write is the cell written, inside the file. -/
theorem eq_of_getElem?_set_ne {α : Type} {l : List α} {n k : Nat} {a : α} (h : (l.set n a)[k]? ≠ l[k]?) :
    n = k ∧ (l.set n a)[k]? = some a := by
  obtain rfl : n = k := by_contra fun hne => h (List.getElem?_set_ne hne)
  refine ⟨rfl, List.getElem?_set_self (lt_of_not_ge fun hge => h ?_)⟩
  rw [List.set_eq_of_length_le hge]

theorem exec_coil_changed {k : Nat} (h : exec i s = .next t) (hk : t.coil[k]? ≠ s.coil[k]?) :
    ∃ addr value, i = .wrcoil addr value ∧ addr.toNat = k ∧ k < s.cfg.numCoils ∧
      (value = 0xFF00#16 ∨ value = 0x0000#16) := by
  obtain ⟨-, -, hcoil⟩ | ⟨addr, value, b, hi, haddr, hvalue, -, hcoil⟩ | ⟨_, _, -, -, -, -, hcoil⟩ := exec_image_cases h
  case inl | inr.inr => exact absurd (by rw [hcoil]) hk
  case inr.inl =>
    rw [hcoil] at hk
    obtain ⟨rfl, -⟩ := eq_of_getElem?_set_ne hk
    exact ⟨addr, value, hi, rfl, haddr, hvalue⟩

theorem exec_hr_changed {k : Nat} (h : exec i s = .next t) (hk : t.hr[k]? ≠ s.hr[k]?) :
    ∃ addr value, i = .wrreg addr value ∧ addr.toNat = k ∧ k < s.cfg.numRegisters ∧
      s.cfg.wrRegStore = true ∧ t.hr[k]? = some value := by
  obtain ⟨-, hhr, -⟩ | ⟨_, _, b, -, -, -, hhr, -⟩ | ⟨addr, value, hi, haddr, hstore, hhr, -⟩ := exec_image_cases h
  case inl | inr.inl => exact absurd (by rw [hhr]) hk
  case inr.inr =>
    rw [hhr] at hk ⊢
    obtain ⟨rfl, hvalue⟩ := eq_of_getElem?_set_ne hk
    exact ⟨addr, value, hi, rfl, haddr, hstore, hvalue⟩

/-! ### The invariant, by the operation a transaction ends with -/

theorem State.respond_inv (hlegal : s.cfg.legal = true) (hmem : s.memoryWf = true) {p : List Byte}
    (hmin : 3 ≤ p.length) (hmax : p.length ≤ 253) : (s.respond p).Inv :=
  ⟨hlegal, s.respond_memoryWf hmem hmax, by rw [State.respond_rsp, framed_length]; omega, p, rfl⟩

theorem dropped_inv (hlegal : s.cfg.legal = true) (hmem : s.memoryWf = true) (cause : DropCause) :
    (dropped s cause).Inv :=
  ⟨hlegal, s.drop_memoryWf hmem cause, rfl⟩

theorem State.raiseIllegalFunction_inv (hlegal : s.cfg.legal = true) (hmem : s.memoryWf = true) (fc : Byte) :
    (s.raiseIllegalFunction fc).Inv :=
  ⟨hlegal, s.raiseIllegalFunction_memoryWf hmem fc, rfl, _, rfl⟩

theorem State.echo_inv (hlegal : s.cfg.legal = true) (hmem : s.memoryWf = true) (hreq : 6 ≤ s.reqBytes.length) :
    s.echo.Inv :=
  State.respond_inv hlegal hmem (by rw [List.length_take]; omega) (by rw [List.length_take]; omega)

theorem State.resetOf_inv {cfg : Config} (hlegal : cfg.legal = true) : (State.resetOf cfg).Inv :=
  ⟨hlegal, State.resetOf_memoryWf hlegal, rfl⟩

/-- From a legal configuration, a well-formed memory and a request long enough to echo, every kind ends in a state that
meets the invariant. The largest answer is 3 + 250 bytes, for 2000 coils or 125 registers. -/
theorem exec_inv (hlegal : s.cfg.legal = true) (hmem : s.memoryWf = true) (hreq : 6 ≤ s.reqBytes.length)
    (h : exec i s = .next t) : t.Inv := by
  cases i with
  | rdcoil start count =>
    obtain ⟨-, rfl⟩ | ⟨-, rfl⟩ | ⟨-, hmax, -, -, rfl⟩ := execRdcoil_cases h
    case inl | inr.inl => exact dropped_inv hlegal hmem _
    case inr.inr =>
      have hbytes : coilByteCount count.toNat ≤ 250 := by rw [coilByteCount]; omega
      refine State.respond_inv (by simpa using hlegal) (s.coilReads_memoryWf hmem _ _) ?_ ?_
      · simp
      · simp
        omega
  | rdhr start count =>
    have hcount := numRegisters_le_of_legal hlegal
    obtain ⟨-, rfl⟩ | ⟨hrange, -⟩ := execRdhr_cases h
    case inl => exact dropped_inv hlegal hmem _
    case inr =>
      cases (execRdhr_of_le hrange).symm.trans h
      refine State.respond_inv hlegal hmem ?_ ?_
      all_goals rw [readPayload_length, registerData_length]; omega
  | wrcoil addr value =>
    obtain ⟨-, rfl⟩ | ⟨-, rfl⟩ | ⟨b, -, -, -, rfl⟩ | ⟨b, -, -, -, rfl⟩ := execWrcoil_cases h
    case inl | inr.inl => exact dropped_inv hlegal hmem _
    all_goals
      have hmem' := State.coilRead_memoryWf _ (s.coilWrite_memoryWf hmem addr.toNat b) addr.toNat
    case inr.inr.inl => exact State.echo_inv (by simpa using hlegal) hmem' (by simpa using hreq)
    case inr.inr.inr => exact dropped_inv (by simpa using hlegal) hmem' _
  | wrreg addr value =>
    obtain ⟨-, rfl⟩ | ⟨-, -, rfl⟩ | ⟨-, -, rfl⟩ := execWrreg_cases h
    case inl => exact dropped_inv hlegal hmem _
    case inr.inl => exact State.echo_inv hlegal (s.writeHr_memoryWf hmem _ _) hreq
    case inr.inr => exact State.echo_inv hlegal hmem hreq
  | illfc fc =>
    obtain rfl := execIllfc_cases h
    exact State.raiseIllegalFunction_inv hlegal hmem fc

/-- The frame whose transaction it is lies in the request buffer, so an accepted one is long enough to echo. -/
theorem transact_inv (hlegal : s.cfg.legal = true) (hmem : s.memoryWf = true) (hreq : s.req = some f)
    (h : transact f s = .next t) : t.Inv := by
  have hbegin : s.begin.memoryWf = true := s.begin_memoryWf hmem
  obtain ⟨cause, -, rfl⟩ | ⟨i, hdecode, hexec⟩ := transact_cases h
  · exact dropped_inv (s := s.begin) hlegal hbegin cause
  · have hlen := validate_none_length (decode_eq_ok_iff.1 hdecode).1
    refine exec_inv (s := s.begin) hlegal hbegin ?_ hexec
    rw [State.begin_reqBytes, State.reqBytes_of_req hreq]
    omega

theorem step_inv (hinv : s.Inv) (h : step s = .next t) : t.Inv := by
  obtain ⟨hlegal, hmem, hresponse⟩ := hinv
  have hreset (rest : List Event) : (s.applyReset rest).Inv :=
    State.resetOf_inv hlegal
  obtain ⟨-, ⟨f, hreq, -, htransact⟩ | ⟨-, -, rfl⟩ | ⟨b, rest, -, -, hfits, rfl⟩ | ⟨b, rest, -, -, -, rfl⟩ |
    ⟨rest, -, -, rfl⟩⟩ := step_cases h
  · exact transact_inv hlegal hmem hreq htransact
  · exact ⟨hlegal, hmem, hresponse⟩
  · exact ⟨hlegal, s.deliver_memoryWf hmem hfits rest, rfl⟩
  · exact hreset rest
  · exact hreset rest

/-! ### The outcome of a transaction -/

/-- A transaction has ended: nothing is answered, or what is answered is in the response buffer. -/
def State.Ended (t : State) : Prop :=
  (∃ cause, t.outcome = some (.noResponse cause)) ∨ t.outcome = some (.respond t.rsp) ∨
    t.outcome = some (.exceptionFrame t.rsp)

theorem HandlerResult.ended (h : HandlerResult i t) : t.Ended := by
  obtain ⟨-, ⟨_, -, hout⟩ | ⟨cause, -, hout, -⟩⟩ := h
  · exact .inr (.inl hout)
  · exact .inl ⟨cause, hout⟩

theorem exec_ended (h : exec i s = .next t) : t.Ended := by
  cases i with
  | rdcoil start count => exact (execRdcoil_handlerResult h).ended
  | rdhr start count => exact (execRdhr_handlerResult h).ended
  | wrcoil addr value => exact (execWrcoil_handlerResult h).ended
  | wrreg addr value => exact (execWrreg_handlerResult h).ended
  | illfc fc =>
    obtain rfl := execIllfc_cases h
    exact .inr (.inr rfl)

theorem transact_ended (h : transact f s = .next t) : t.Ended := by
  obtain ⟨cause, -, rfl⟩ | ⟨i, -, hexec⟩ := transact_cases h
  · exact .inl ⟨cause, rfl⟩
  · exact exec_ended hexec

/-! ### The two outcomes of a state that meets the invariant -/

theorem rsp_eq_nil_of_noResponse {cause : DropCause} (hresponse : t.responseWf)
    (hout : t.outcome = some (.noResponse cause)) : t.rsp = [] := by
  unfold State.outcome at hout
  unfold State.responseWf at hresponse
  split at hout <;> simp_all

theorem rsp_framed_of_answer (hresponse : t.responseWf) (hmem : t.memoryWf = true)
    (hout : t.outcome = some (.respond t.rsp) ∨ t.outcome = some (.exceptionFrame t.rsp)) :
    ∃ payload, 3 ≤ payload.length ∧ payload.length ≤ 253 ∧ t.rsp = framed payload := by
  obtain ⟨-, -, -, hmax⟩ := t.memoryWf_iff.1 hmem
  have hframed : 5 ≤ t.rsp.length ∧ ∃ payload, t.rsp = framed payload := by
    unfold State.outcome at hout
    unfold State.responseWf at hresponse
    split at hout <;> simp_all
  obtain ⟨hmin, payload, hrsp⟩ := hframed
  rw [hrsp, framed_length] at hmin hmax
  exact ⟨payload, by omega, by omega, hrsp⟩

/-! ### Every input either has a next state or is refused by name -/

theorem transact_answers (f : List Byte) (s : State) : ∃ t, transact f s = .next t := by
  unfold transact
  split
  · exact ⟨_, rfl⟩
  · exact exec_answers _ _

/-- A frame longer than the buffer cannot be processed. -/
theorem step_of_tooLong (hlegal : s.cfg.legal = true) (hreq : s.req = some f) (hlong : 256 < f.length) :
    step s = .refused (.frameTooLong f.length) := by
  unfold step process
  rw [if_pos hlegal, hreq]
  exact if_neg (by rw [frameFits_iff]; omega)

/-- With no frame presented, the step is the next event. -/
theorem step_of_idle (hlegal : s.cfg.legal = true) (hreq : s.req = none) : step s = takeEvent s := by
  rw [step, if_pos hlegal, hreq]

theorem takeEvent_nil (hline : s.line = []) : takeEvent s = .next s := by rw [takeEvent, hline]

theorem takeEvent_frame {rest : List Event} (hline : s.line = .frame f :: rest) :
    takeEvent s = if f.length ≤ 256 then .next (s.deliver f rest) else .refused (.frameTooLong f.length) := by
  simp only [takeEvent, hline, frameFits_iff]

theorem takeEvent_cutFrame {rest : List Event} (hline : s.line = .cutFrame f :: rest) :
    takeEvent s = if f.length ≤ 256 then .next (s.applyReset rest) else .refused (.frameTooLong f.length) := by
  simp only [takeEvent, hline, frameFits_iff]

theorem takeEvent_reset {rest : List Event} (hline : s.line = .reset :: rest) :
    takeEvent s = .next (s.applyReset rest) := by rw [takeEvent, hline]

/-- An event that fits has a next state. -/
theorem takeEvent_of_fits {e : Event} {rest : List Event} (hline : s.line = e :: rest) (hfits : e.fits = true) :
    ∃ t, takeEvent s = .next t := by
  cases e with
  | frame f => exact ⟨_, (takeEvent_frame hline).trans (if_pos (frameFits_iff.1 hfits))⟩
  | cutFrame f => exact ⟨_, (takeEvent_cutFrame hline).trans (if_pos (frameFits_iff.1 hfits))⟩
  | reset => exact ⟨_, takeEvent_reset hline⟩

/-- An event that does not fit carries a frame, and is refused with that frame's length. -/
theorem takeEvent_of_not_fits {e : Event} {rest : List Event} (hline : s.line = e :: rest) (hfits : e.fits = false) :
    ∃ f : List Byte, (e = .frame f ∨ e = .cutFrame f) ∧ 256 < f.length ∧
      takeEvent s = .refused (.frameTooLong f.length) := by
  have hlong {f : List Byte} (h : frameFits f = false) : ¬ f.length ≤ 256 := by
    rw [← frameFits_iff, h]; exact Bool.false_ne_true
  cases e with
  | frame f =>
    exact ⟨f, .inl rfl, Nat.lt_of_not_le (hlong hfits), (takeEvent_frame hline).trans (if_neg (hlong hfits))⟩
  | cutFrame f =>
    exact ⟨f, .inr rfl, Nat.lt_of_not_le (hlong hfits), (takeEvent_cutFrame hline).trans (if_neg (hlong hfits))⟩
  | reset => cases hfits

end Sys2Proof.Machine

namespace Sys2Proof

open Machine

/-- Settles O23: the transaction ends in an answer, an exception response or a drop, each of which meets the invariant; an
event gives an idle state. -/
theorem stepKeepsInvariant : Obligations.StepKeepsInvariant :=
  fun _ _ => step_inv

/-- Settles O24: each input is split by the length of its frame. -/
theorem stepStopsOnlyOnMeaninglessInput : Obligations.StepStopsOnlyOnMeaninglessInput := by
  intro s
  refine ⟨fun hillegal => ?illegal, fun hlegal => ⟨fun f hreq => ⟨fun hfits => ?presented, step_of_tooLong hlegal hreq⟩,
    fun hreq => ?idle⟩⟩
  case illegal => rw [step, hillegal, if_neg Bool.false_ne_true]
  case presented =>
    rw [step_of_presented hlegal hreq hfits]
    exact transact_answers f s
  case idle =>
    rw [step_of_idle hlegal hreq]
    exact ⟨fun hline => ⟨s, takeEvent_nil hline⟩,
      fun e rest hline => ⟨takeEvent_of_fits hline, takeEvent_of_not_fits hline⟩⟩

/-- Settles O25: no request changes a constant, and no event does. -/
theorem constantsNeverChange : Obligations.ConstantsNeverChange := by
  intro s t h
  obtain ⟨-, ⟨f, -, -, htransact⟩ | ⟨-, -, rfl⟩ | ⟨b, rest, -, -, -, rfl⟩ | ⟨b, rest, -, -, -, rfl⟩ |
    ⟨rest, -, -, rfl⟩⟩ := step_cases h
  case inl =>
    obtain ⟨cause, -, rfl⟩ | ⟨i, -, hexec⟩ := transact_cases htransact
    · rfl
    · exact (exec_frame hexec).1
  all_goals rfl

/-- Settles O27: the step keeps the invariant, which ties the response buffer to the outcome. -/
theorem everyResponseIsFramedPayload : Obligations.EveryResponseIsFramedPayload := by
  intro s t f hinv hreq hstep
  obtain ⟨-, hmem, hresponse⟩ := step_inv hinv hstep
  obtain ⟨cause, hout⟩ | hout := transact_ended (transact_of_step hreq hstep)
  · exact .inl ⟨rsp_eq_nil_of_noResponse hresponse hout, cause, hout⟩
  · obtain ⟨payload, hmin, hmax, hrsp⟩ := rsp_framed_of_answer hresponse hmem hout
    exact .inr ⟨payload, hmin, hmax, hrsp, hout⟩

/-- Settles O46: the cases of a request's effect on the image, read cell by cell. -/
theorem onlyWriteHandlersChangeImage : Obligations.OnlyWriteHandlersChangeImage := by
  intro s t i h
  obtain ⟨hcfg, hline⟩ := exec_frame h
  obtain ⟨hhr, hcoil⟩ := exec_file_lengths h
  exact ⟨hcfg, hline, hhr, hcoil, fun k => exec_coil_changed h, fun k => exec_hr_changed h⟩

/-- Settles O17: the step is the frame's transaction, which runs the request it decodes to. -/
theorem stepRunsDecodedRequest : Obligations.StepRunsDecodedRequest := by
  intro s f i hlegal hreq hfits hdecode
  obtain ⟨hv, rfl⟩ := decode_eq_ok_iff.1 hdecode
  rw [step_of_presented hlegal hreq hfits, transact_of_accepted hv, State.begin]

/-- Settles O18: the next event is a delivery. -/
theorem idleBlockTakesNextFrame : Obligations.IdleBlockTakesNextFrame := by
  intro s f rest hlegal hreq hline hfits
  rw [step_of_idle hlegal hreq, takeEvent_frame hline, if_pos hfits]
  rfl

/-- Settles O19: there is no next event. -/
theorem idleBlockWaits : Obligations.IdleBlockWaits := by
  intro s hlegal hreq hline
  rw [step_of_idle hlegal hreq, takeEvent_nil hline]

/-- Settles O20: both events apply a reset, whose fields are read off. -/
theorem resetReturnsDefaultImage : Obligations.ResetReturnsDefaultImage := by
  intro s rest hlegal hreq hline
  have hstep : step s = .next (s.applyReset rest) := by
    rw [step_of_idle hlegal hreq]
    obtain hreset | ⟨f, hfits, hcut⟩ := hline
    · exact takeEvent_reset hreset
    · exact (takeEvent_cutFrame hcut).trans (if_pos hfits)
  refine ⟨hstep, fun t ht => ?_⟩
  cases hstep.symm.trans ht
  exact ⟨rfl, rfl, rfl, rfl, rfl, rfl, rfl, rfl⟩

/-- Settles O21: the reset state holds the configured values, and the reference registers are the ones written out. -/
theorem resetLeavesBlockIdle : Obligations.ResetLeavesBlockIdle :=
  ⟨fun _ => ⟨rfl, rfl, rfl, rfl, rfl, rfl, rfl⟩, rfl⟩

/-- Settles O22: the reset state of a legal configuration meets the invariant, and the reference configuration is legal. -/
theorem resetMeetsInvariant : Obligations.ResetMeetsInvariant :=
  ⟨State.resetOf_inv (by decide), fun _ => State.resetOf_inv⟩

end Sys2Proof

/-! The handlers case by case (spec/43_read_handlers.md, spec/44_write_handlers.md): what each answers when its arguments
pass, and which drop each failing check gives. -/

namespace Sys2Proof.Machine

variable {s t : State} {i : Instr} {start count addr value : Word} {on : Bool}

/-! ### Read Coils (rules R110, R111) -/

theorem execRdcoil_of_badCount (h : count.toNat < 1 ∨ 2000 < count.toNat) :
    execRdcoil start count s = .next (dropped s .count) := if_pos h

theorem execRdcoil_of_badRange (hmin : 1 ≤ count.toNat) (hmax : count.toNat ≤ 2000)
    (h : start.toNat < 1 ∨ s.cfg.numCoils < (start.toNat - 1) + count.toNat) :
    execRdcoil start count s = .next (dropped s .range) := by
  have hcount : ¬ (count.toNat < 1 ∨ count.toNat > 2000) := by omega
  exact (if_neg hcount).trans (if_pos h)

/-- The data of a coil response. -/
def coilData (s : State) (start count : Word) : List Byte :=
  packCoils (s.coilAnswers (start.toNat - 1) count.toNat)

@[simp] theorem coilData_length : (coilData s start count).length = coilByteCount count.toNat := by
  rw [coilData, packCoils_length, State.coilAnswers_length]

/-- Coils in range are read, ascending, and answered with a read response. -/
theorem execRdcoil_of_le (hmin : 1 ≤ count.toNat) (hmax : count.toNat ≤ 2000) (hstart : 1 ≤ start.toNat)
    (hrange : (start.toNat - 1) + count.toNat ≤ s.cfg.numCoils) :
    execRdcoil start count s = .next ((s.coilReads (start.toNat - 1) count.toNat).respond
      (readPayload s.cfg.slaveId 0x01#8 (coilData s start count))) := by
  have hcount : ¬ (count.toNat < 1 ∨ count.toNat > 2000) := by omega
  rw [readPayload, coilData_length]
  exact (if_neg hcount).trans (if_neg (by omega))

/-- With the ideal backend answer `k` is the coil itself, which the range check keeps inside the file. -/
theorem State.coilAnswers_getElem?_ideal (h : s.cfg.backend = .ideal) {i n k : Nat} (hk : k < n)
    (hin : i + n ≤ s.coil.length) : (s.coilAnswers i n)[k]? = s.coil[i + k]? := by
  have hcoil : i + k < s.coil.length := by omega
  simp [s.coilAnswers_ideal h, hk, hcoil]

theorem State.coilAnswers_getElem?_oracle (h : s.cfg.backend = .oracle) (i : Nat) {n k : Nat} (hk : k < n) :
    (s.coilAnswers i n)[k]? = some (Config.freeCoilRead (s.draws + k)) := by
  simp [s.coilAnswers_oracle h, hk]

/-! ### Packing -/

/-- From bit `first` on, `fuel` bits of the byte are coils; the others are 0. -/
theorem packBitsOfByte_getLsbD (coils : List Bool) (j fuel first b : Nat) (hb : b < 8) :
    (packBitsOfByte coils j fuel first).getLsbD b =
      (decide (first ≤ b ∧ b < first + fuel) && coils.getD (8 * j + b) false) := by
  induction fuel generalizing first with
  | zero => simp [packBitsOfByte]
  | succ fuel ih =>
    have hbit : (if coils.getD (8 * j + first) false then 1#8 <<< first else 0x00#8).getLsbD b =
        (decide (first = b) && coils.getD (8 * j + b) false) := by
      obtain rfl | hne := eq_or_ne first b
      · split <;> simp_all
      · have hother : first ≤ b → b - first ≠ 0 := by omega
        split <;> simp_all
    rw [packBitsOfByte, BitVec.getLsbD_or, hbit, ih, ← Bool.and_or_distrib_right, ← Bool.decide_or]
    exact congrArg (· && _) (decide_eq_decide.2 (by omega))

theorem packedByte_getLsbD (coils : List Bool) (j : Nat) {b : Nat} (hb : b < 8) :
    (packedByte coils j).getLsbD b = coils.getD (8 * j + b) false := by
  rw [packedByte, packBitsOfByte_getLsbD _ _ _ _ _ hb, decide_eq_true (by omega), Bool.true_and]

/-! ### Write Single Coil (rules R120, R121) -/

theorem execWrcoil_of_badValue (h : decodeCoilValue value = none) :
    execWrcoil addr value s = .next (dropped s .value) := by
  rw [execWrcoil, h]
  rfl

theorem execWrcoil_of_badAddr (hvalue : decodeCoilValue value = some on) (h : s.cfg.numCoils ≤ addr.toNat) :
    execWrcoil addr value s = .next (dropped s .range) := by
  rw [execWrcoil, hvalue]
  exact if_pos h

/-- A value and an address that pass: the coil is written, and the read-back decides. -/
theorem execWrcoil_of_lt (hvalue : decodeCoilValue value = some on) (h : addr.toNat < s.cfg.numCoils) :
    execWrcoil addr value s =
      if (s.coilWrite addr.toNat on).coilAnswer addr.toNat = on then
        .next (((s.coilWrite addr.toNat on).coilRead addr.toNat).echo)
      else .next (dropped ((s.coilWrite addr.toNat on).coilRead addr.toNat) .readback) := by
  rw [execWrcoil, hvalue]
  exact if_neg (by omega)

/-- The ideal backend reads back what was written. -/
theorem State.coilAnswer_coilWrite_ideal (hideal : s.cfg.backend = .ideal) {k : Nat} (hk : k < s.coil.length) :
    (s.coilWrite k on).coilAnswer k = on := by
  simp [State.coilAnswer, hideal, hk]

/-- An oracle reads back the free value after the one the write has drawn. -/
theorem State.coilAnswer_coilWrite_oracle (horacle : s.cfg.backend = .oracle) (k : Nat) :
    (s.coilWrite k on).coilAnswer k = Config.freeCoilRead (s.draws + 1) := by
  simp [State.coilAnswer, horacle]

theorem State.coilWrite_coilRead_ideal (hideal : s.cfg.backend = .ideal) (k : Nat) :
    (s.coilWrite k on).coilRead k =
      { s with coil := s.coil.set k on, io := s.io ++ [.write k on, .read k] } := by
  simp [State.coilWrite, State.coilRead, hideal]

theorem State.coilWrite_coilRead_oracle (horacle : s.cfg.backend = .oracle) (k : Nat) :
    (s.coilWrite k on).coilRead k =
      { s with
        coil := s.coil.set k (Config.freeCoilAfterWrite s.draws)
        io := s.io ++ [.write k on, .read k]
        draws := s.draws + 2 } := by
  simp [State.coilWrite, State.coilRead, horacle]

/-- With the ideal backend a write that passes both checks is answered. -/
theorem execWrcoil_ideal (hideal : s.cfg.backend = .ideal) (hcoil : s.coil.length = s.cfg.numCoils)
    (hvalue : decodeCoilValue value = some on) (h : addr.toNat < s.cfg.numCoils) :
    execWrcoil addr value s = .next
      ({ s with
          coil := s.coil.set addr.toNat on
          io := s.io ++ [.write addr.toNat on, .read addr.toNat] } : State).echo := by
  rw [execWrcoil_of_lt hvalue h, if_pos (State.coilAnswer_coilWrite_ideal hideal (hcoil ▸ h)),
    State.coilWrite_coilRead_ideal hideal]

/-- Only Write Single Coil reads back. -/
theorem exec_readback (h : exec i s = .next t) (hstatus : t.status = .noResponse .readback) :
    ∃ addr value, i = .wrcoil addr value := by
  have hcause {i : Instr} (hresult : HandlerResult i t) : .readback ∈ handlerCauses i := by
    have hout : t.outcome = some (.noResponse .readback) := by rw [State.outcome, hstatus]
    obtain ⟨-, ⟨_, -, hrespond⟩ | ⟨cause, -, hdrop, hmem⟩⟩ := hresult
    · cases hout.symm.trans hrespond
    · cases hout.symm.trans hdrop
      exact hmem
  cases i with
  | wrcoil addr value => exact ⟨addr, value, rfl⟩
  | rdcoil start count => exact absurd (hcause (execRdcoil_handlerResult h)) (by simp [handlerCauses])
  | rdhr start count => exact absurd (hcause (execRdhr_handlerResult h)) (by simp [handlerCauses])
  | wrreg addr value => exact absurd (hcause (execWrreg_handlerResult h)) (by simp [handlerCauses])
  | illfc fc =>
    obtain rfl := execIllfc_cases h
    cases hstatus

/-! ### Write Single Register (rule R122) -/

theorem execWrreg_of_badAddr (h : s.cfg.numRegisters ≤ addr.toNat) :
    execWrreg addr value s = .next (dropped s .range) := if_pos h

theorem execWrreg_of_lt (h : addr.toNat < s.cfg.numRegisters) :
    execWrreg addr value s =
      .next ({ s with hr := if s.cfg.wrRegStore then s.hr.set addr.toNat value else s.hr } : State).echo := by
  have haddr : ¬ addr.toNat ≥ s.cfg.numRegisters := by omega
  refine (if_neg haddr).trans ?_
  cases s.cfg.wrRegStore <;> rfl

/-! ### What a read response depends on -/

theorem State.readHrs_congr {s1 s2 : State} (hhr : s1.hr = s2.hr) (i n : Nat) : s1.readHrs i n = s2.readHrs i n := by
  simp only [State.readHrs, State.readHr, hhr]

/-- The constants and the registers fix the outcome of Read Holding Registers. -/
theorem execRdhr_outcome_congr {s1 s2 t1 t2 : State} (hcfg : s1.cfg = s2.cfg) (hhr : s1.hr = s2.hr)
    (h1 : execRdhr start count s1 = .next t1) (h2 : execRdhr start count s2 = .next t2) :
    t1.outcome = t2.outcome := by
  obtain hrange | hbeyond := le_or_gt (start.toNat + count.toNat) s2.cfg.numRegisters
  · rw [execRdhr_of_le (hcfg ▸ hrange)] at h1
    rw [execRdhr_of_le hrange] at h2
    cases h1
    cases h2
    simp only [State.respond_outcome, registerData, State.readHrs_congr hhr, hcfg]
  · rw [execRdhr_of_lt (hcfg ▸ hbeyond)] at h1
    rw [execRdhr_of_lt hbeyond] at h2
    cases h1
    cases h2
    rfl

/-- With the ideal backend the constants and the coils fix the outcome of Read Coils. -/
theorem execRdcoil_outcome_congr {s1 s2 t1 t2 : State} (hcfg : s1.cfg = s2.cfg) (hcoil : s1.coil = s2.coil)
    (hideal : s1.cfg.backend = .ideal) (h1 : execRdcoil start count s1 = .next t1)
    (h2 : execRdcoil start count s2 = .next t2) : t1.outcome = t2.outcome := by
  by_cases hcount : count.toNat < 1 ∨ 2000 < count.toNat
  · rw [execRdcoil_of_badCount hcount] at h1 h2
    cases h1
    cases h2
    rfl
  by_cases hrange : start.toNat < 1 ∨ s2.cfg.numCoils < (start.toNat - 1) + count.toNat
  · rw [execRdcoil_of_badRange (by omega) (by omega) (hcfg ▸ hrange)] at h1
    rw [execRdcoil_of_badRange (by omega) (by omega) hrange] at h2
    cases h1
    cases h2
    rfl
  · rw [execRdcoil_of_le (by omega) (by omega) (by omega) (by rw [hcfg]; omega)] at h1
    rw [execRdcoil_of_le (by omega) (by omega) (by omega) (by omega)] at h2
    cases h1
    cases h2
    simp only [State.respond_outcome, coilData, s1.coilAnswers_ideal hideal, s2.coilAnswers_ideal (hcfg ▸ hideal),
      hcoil, hcfg]

theorem numCoils_le_of_legal {cfg : Config} (h : cfg.legal = true) : cfg.numCoils ≤ 65535 := by
  simp only [Config.legal, Bool.and_eq_true, decide_eq_true_eq] at h
  omega

end Sys2Proof.Machine

namespace Sys2Proof

open Machine

/-- Settles O28: the answers are those of the coil reads, which the range check keeps inside the coil file. -/
theorem readCoilsAnswers : Obligations.ReadCoilsAnswers := by
  intro s start count hcoil hmin hmax hstart hrange
  refine ⟨s.coilAnswers (start.toNat - 1) count.toNat, State.coilAnswers_length _ _ _,
    fun hideal k hk => State.coilAnswers_getElem?_ideal hideal hk (hcoil ▸ hrange),
    fun horacle k hk => State.coilAnswers_getElem?_oracle horacle _ hk, ?_⟩
  have hdraws : (if s.cfg.backend = .oracle then count.toNat else 0) =
      match s.cfg.backend with | .ideal => 0 | .oracle => count.toNat := by
    cases s.cfg.backend <;> rfl
  rw [exec_rdcoil, execRdcoil_of_le hmin hmax hstart hrange, State.coilReads_eq, hdraws, readPayload, coilData_length]
  rfl

/-- Settles O29: the count is checked before the range. -/
theorem readCoilsDropsBadArguments : Obligations.ReadCoilsDropsBadArguments :=
  fun _ _ _ => ⟨execRdcoil_of_badCount, execRdcoil_of_badRange⟩

/-- Settles O30: bit `b` of a packed byte is the coil of its number, and a coil beyond the list reads as off. -/
theorem coilsPackedLeastSignificantFirst : Obligations.CoilsPackedLeastSignificantFirst := by
  intro coils
  refine ⟨packCoils_length coils, fun j b hj hb => ⟨packedByte coils j, ?_, ?_⟩⟩
  · have hbyte : j < coilByteCount coils.length := hj
    simp [packCoils, hbyte]
  · rw [packedByte_getLsbD coils j hb]
    split
    · rfl
    · exact List.getD_eq_default _ _ (by omega)

/-- Settles O33: with a count of 0 the range check of Read Holding Registers is on the start alone, and the count check of
Read Coils fails. -/
theorem registerCountZeroAnswered : Obligations.RegisterCountZeroAnswered := by
  intro s start
  refine ⟨fun hrange => ?_, fun hbeyond => ?_, ?_, by decide +kernel⟩
  · rw [exec_rdhr, execRdhr_of_le (count := 0#16) hrange]
    rfl
  · rw [exec_rdhr, execRdhr_of_lt (count := 0#16) hbeyond]
  · rw [exec_rdcoil, execRdcoil_of_badCount (.inl (by decide))]

/-- Settles O34: the sums are of natural numbers, and a legal file has at most 125 registers or 65535 coils. -/
theorem rangeSumsDoNotWrap : Obligations.RangeSumsDoNotWrap := by
  intro s start count hlegal hsum
  have hregs := numRegisters_le_of_legal hlegal
  have hcoils := numCoils_le_of_legal hlegal
  have hstart := start.isLt
  refine ⟨by rw [exec_rdhr, execRdhr_of_lt (by omega)], fun hmax hwide => ?_⟩
  rw [exec_rdcoil, execRdcoil_of_badRange (by omega) hmax (by omega)]

/-- Settles O36: both kinds complete, and their outcomes are fixed by the file they read. -/
theorem readResponsesDependOnTheirFileOnly : Obligations.ReadResponsesDependOnTheirFileOnly := by
  intro s1 s2 start count hcfg
  refine ⟨fun hhr => ?registers, fun hcoil hideal => ?coils⟩
  case registers =>
    obtain ⟨t1, h1⟩ := execRdhr_answers start count s1
    obtain ⟨t2, h2⟩ := execRdhr_answers start count s2
    exact ⟨t1, t2, h1, h2, execRdhr_outcome_congr hcfg hhr h1 h2⟩
  case coils =>
    obtain ⟨t1, h1⟩ := execRdcoil_answers start count s1
    obtain ⟨t2, h2⟩ := execRdcoil_answers start count s2
    exact ⟨t1, t2, h1, h2, execRdcoil_outcome_congr hcfg hcoil hideal h1 h2⟩

/-- Settles O37: both checks pass, and the ideal backend reads back what was written. -/
theorem writeCoilDrivesCoilAndEchoes : Obligations.WriteCoilDrivesCoilAndEchoes := by
  intro s addr value on hideal hcoil haddr hvalue
  rw [exec_wrcoil, execWrcoil_ideal hideal hcoil (decodeCoilValue_eq_some_iff.2 hvalue) haddr]
  rfl

/-- Settles O38: the value is checked before the address, and both before the write. -/
theorem writeCoilDropsBadArguments : Obligations.WriteCoilDropsBadArguments := by
  intro s addr value
  refine ⟨fun hon hoff => execWrcoil_of_badValue (decodeCoilValue_eq_none_iff.2 ⟨hon, hoff⟩), fun hvalue haddr => ?_⟩
  obtain hon | hoff := hvalue
  · exact execWrcoil_of_badAddr (on := true) (decodeCoilValue_eq_some_iff.2 hon) haddr
  · exact execWrcoil_of_badAddr (on := false) (decodeCoilValue_eq_some_iff.2 hoff) haddr

/-- Settles O39: the write draws the first free value, the read-back the second, which decides. -/
theorem oracleReadBackDecides : Obligations.OracleReadBackDecides := by
  intro s addr value on horacle haddr hvalue
  rw [exec_wrcoil, execWrcoil_of_lt (decodeCoilValue_eq_some_iff.2 hvalue) haddr,
    State.coilAnswer_coilWrite_oracle horacle, State.coilWrite_coilRead_oracle horacle]
  split <;> rfl

/-- Settles O40: only Write Single Coil can drop with READBACK, and the ideal backend's read-back agrees. -/
theorem idealBackendNeverFailsReadBack : Obligations.IdealBackendNeverFailsReadBack := by
  intro s t i hideal hcoil h hstatus
  obtain ⟨addr, value, rfl⟩ := exec_readback h hstatus
  obtain ⟨-, rfl⟩ | ⟨-, rfl⟩ | ⟨b, -, -, -, rfl⟩ | ⟨b, -, haddr, hmismatch, -⟩ := execWrcoil_cases h
  case inl | inr.inl | inr.inr.inl => cases hstatus
  case inr.inr.inr => exact hmismatch (State.coilAnswer_coilWrite_ideal hideal (hcoil ▸ haddr))

/-- Settles O41: the address decides between the echo and the drop, the configuration whether the value is stored. -/
theorem writeRegisterEchoesAndStoresIfConfigured : Obligations.WriteRegisterEchoesAndStoresIfConfigured := by
  intro s addr value
  refine ⟨fun haddr => ?_, execWrreg_of_badAddr⟩
  rw [exec_wrreg, execWrreg_of_lt haddr]
  rfl

end Sys2Proof

/-! Sequences of frames (spec/20_memory.md section 7, spec/60_exceptions.md section 4, spec/42_dispatcher.md section 3). What
one transaction leaves for the next is the image, and what it takes from the request buffer is its first six bytes; so a
frame that changes no image leaves no trace, and the machine fed frame by frame is the fold of its transactions. -/

namespace Sys2Proof.Machine

variable {s t u : State} {f g : List Byte} {l : List Event} {i : Instr} {start count addr value : Word} {on : Bool}

/-! ### What a transaction starts from -/

/-- The response buffer, the outcome and the backend calls of the last transaction play no part in the next. -/
theorem transact_begin (f : List Byte) (s : State) : transact f s.begin = transact f s := by
  simp only [transact, State.begin_cfg, State.begin_begin]

theorem step_begin (hreq : s.req = some f) : step s.begin = step s := by
  simp only [step, State.begin_cfg, State.begin_req, hreq, process, transact_begin]

theorem step_congr_of_begin (hs : s.req = some g) (ht : t.req = some g) (h : s.begin = t.begin) : step s = step t := by
  rw [← step_begin hs, h, step_begin ht]

/-- A step on a frame presented needs a legal configuration and a frame that fits. -/
theorem legal_and_fits_of_step (hreq : s.req = some f) (h : step s = .next t) :
    s.cfg.legal = true ∧ f.length ≤ 256 := by
  obtain ⟨hlegal, -⟩ := step_cases h
  refine ⟨hlegal, Nat.le_of_not_lt fun hlong => ?_⟩
  cases (step_of_tooLong hlegal hreq hlong).symm.trans h

/-! ### Frames that leave no trace -/

/-- A drop other than READBACK comes before any write, and so does the exception. -/
theorem exec_dropped_or_exception (h : exec i s = .next t)
    (hstatus : t.status = .exceptionFrame ∨ ∃ cause, t.status = .noResponse cause ∧ cause ≠ .readback) :
    (∃ cause, t = dropped s cause) ∨ ∃ fc, t = s.raiseIllegalFunction fc := by
  cases i with
  | rdcoil start count =>
    obtain ⟨-, rfl⟩ | ⟨-, rfl⟩ | ⟨-, -, -, -, rfl⟩ := execRdcoil_cases h
    case inl | inr.inl => exact .inl ⟨_, rfl⟩
    case inr.inr => simp at hstatus
  | rdhr start count =>
    obtain ⟨-, rfl⟩ | ⟨-, rfl⟩ := execRdhr_cases h
    case inl => exact .inl ⟨_, rfl⟩
    case inr => simp at hstatus
  | wrcoil addr value =>
    obtain ⟨-, rfl⟩ | ⟨-, rfl⟩ | ⟨b, -, -, -, rfl⟩ | ⟨b, -, -, -, rfl⟩ := execWrcoil_cases h
    case inl | inr.inl => exact .inl ⟨_, rfl⟩
    case inr.inr.inl | inr.inr.inr => simp at hstatus
  | wrreg addr value =>
    obtain ⟨-, rfl⟩ | ⟨-, -, rfl⟩ | ⟨-, -, rfl⟩ := execWrreg_cases h
    case inl => exact .inl ⟨_, rfl⟩
    case inr.inl | inr.inr => simp at hstatus
  | illfc fc => exact .inr ⟨fc, execIllfc_cases h⟩

/-- After such a frame, the next transaction begins as it would have begun before it. -/
theorem transact_noTrace (h : transact f s = .next t)
    (hstatus : t.status = .exceptionFrame ∨ ∃ cause, t.status = .noResponse cause ∧ cause ≠ .readback)
    (g : List Byte) : ({ t with req := some g } : State).begin = ({ s with req := some g } : State).begin := by
  obtain ⟨cause, -, rfl⟩ | ⟨i, -, hexec⟩ := transact_cases h
  · rfl
  · obtain ⟨cause, rfl⟩ | ⟨fc, rfl⟩ := exec_dropped_or_exception hexec hstatus
    · rfl
    · rfl

/-! ### What a transaction takes from the request buffer -/

/-- The same state with another frame in the request buffer, and other events to come. -/
def State.presents (s : State) (f : List Byte) (l : List Event) : State := { s with req := some f, line := l }

/-- The same state with other events to come. -/
def State.withLine (s : State) (l : List Event) : State := { s with line := l }

@[simp] theorem State.presents_cfg : (s.presents f l).cfg = s.cfg := rfl

@[simp] theorem State.presents_coilAnswers (k n : Nat) : (s.presents f l).coilAnswers k n = s.coilAnswers k n :=
  State.coilAnswers_congr (s := s) (t := s.presents f l) rfl rfl rfl k n

theorem State.presents_coilReads (k n : Nat) : (s.presents f l).coilReads k n = (s.coilReads k n).presents f l := by
  rw [State.coilReads_eq, State.coilReads_eq]
  rfl

theorem State.presents_coilWrite (k : Nat) (b : Bool) :
    (s.presents f l).coilWrite k b = (s.coilWrite k b).presents f l := by
  cases hb : s.cfg.backend <;> simp [State.coilWrite, State.presents, hb]

theorem State.presents_coilRead (k : Nat) : (s.presents f l).coilRead k = (s.coilRead k).presents f l :=
  State.presents_coilReads k 1

theorem State.presents_coilAnswer (k : Nat) : (s.presents f l).coilAnswer k = s.coilAnswer k := by
  simp only [State.coilAnswer, State.presents]

theorem State.presents_respond (p : List Byte) : (s.presents f l).respond p = (s.respond p).withLine l := rfl

/-- The echo copies six bytes (rule R123). -/
theorem State.presents_echo (hsix : f.take 6 = s.reqBytes.take 6) : (s.presents f l).echo = s.echo.withLine l := by
  have hbytes : (s.presents f l).reqBytes = f := rfl
  rw [State.echo, hbytes, hsix, State.presents_respond, State.echo]

theorem execRdcoil_presents (h : execRdcoil start count s = .next t) :
    execRdcoil start count (s.presents f l) = .next (t.withLine l) := by
  by_cases hcount : count.toNat < 1 ∨ 2000 < count.toNat
  · cases (execRdcoil_of_badCount hcount).symm.trans h
    exact execRdcoil_of_badCount hcount
  obtain ⟨hmin, hmax⟩ : 1 ≤ count.toNat ∧ count.toNat ≤ 2000 := by omega
  by_cases hrange : start.toNat < 1 ∨ s.cfg.numCoils < (start.toNat - 1) + count.toNat
  · cases (execRdcoil_of_badRange hmin hmax hrange).symm.trans h
    exact execRdcoil_of_badRange hmin hmax hrange
  · obtain ⟨hstart, hend⟩ : 1 ≤ start.toNat ∧ (start.toNat - 1) + count.toNat ≤ s.cfg.numCoils := by omega
    cases (execRdcoil_of_le hmin hmax hstart hend).symm.trans h
    rw [execRdcoil_of_le (s := s.presents f l) hmin hmax hstart hend, State.presents_coilReads, State.presents_respond,
      State.presents_cfg, coilData, State.presents_coilAnswers, coilData]

theorem execRdhr_presents (h : execRdhr start count s = .next t) :
    execRdhr start count (s.presents f l) = .next (t.withLine l) := by
  obtain hrange | hbeyond := le_or_gt (start.toNat + count.toNat) s.cfg.numRegisters
  · cases (execRdhr_of_le hrange).symm.trans h
    exact execRdhr_of_le (s := s.presents f l) hrange
  · cases (execRdhr_of_lt hbeyond).symm.trans h
    exact execRdhr_of_lt hbeyond

theorem execWrcoil_presents (hsix : f.take 6 = s.reqBytes.take 6) (h : execWrcoil addr value s = .next t) :
    execWrcoil addr value (s.presents f l) = .next (t.withLine l) := by
  cases hvalue : decodeCoilValue value with
  | none =>
    cases (execWrcoil_of_badValue hvalue).symm.trans h
    exact execWrcoil_of_badValue hvalue
  | some on =>
    obtain hbeyond | haddr := le_or_gt s.cfg.numCoils addr.toNat
    · cases (execWrcoil_of_badAddr hvalue hbeyond).symm.trans h
      exact execWrcoil_of_badAddr hvalue hbeyond
    · rw [execWrcoil_of_lt hvalue haddr] at h
      rw [execWrcoil_of_lt (s := s.presents f l) hvalue haddr, State.presents_coilWrite, State.presents_coilAnswer,
        State.presents_coilRead]
      by_cases hagrees : (s.coilWrite addr.toNat on).coilAnswer addr.toNat = on
      · cases (if_pos hagrees).symm.trans h
        rw [if_pos hagrees, State.presents_echo (by simpa using hsix)]
      · cases (if_neg hagrees).symm.trans h
        exact if_neg hagrees

theorem execWrreg_presents (hsix : f.take 6 = s.reqBytes.take 6) (h : execWrreg addr value s = .next t) :
    execWrreg addr value (s.presents f l) = .next (t.withLine l) := by
  obtain hbeyond | haddr := le_or_gt s.cfg.numRegisters addr.toNat
  · cases (execWrreg_of_badAddr hbeyond).symm.trans h
    exact execWrreg_of_badAddr hbeyond
  · cases (execWrreg_of_lt haddr).symm.trans h
    rw [execWrreg_of_lt (s := s.presents f l) haddr]
    exact congrArg _ (State.presents_echo
      (s := { s with hr := if s.cfg.wrRegStore then s.hr.set addr.toNat value else s.hr }) hsix)

/-- A request sees six bytes of the request buffer, and nothing of what is to come. -/
theorem exec_presents (hsix : f.take 6 = s.reqBytes.take 6) (h : exec i s = .next t) :
    exec i (s.presents f l) = .next (t.withLine l) := by
  cases i with
  | rdcoil start count => exact execRdcoil_presents h
  | rdhr start count => exact execRdhr_presents h
  | wrcoil addr value => exact execWrcoil_presents hsix h
  | wrreg addr value => exact execWrreg_presents hsix h
  | illfc fc =>
    cases h
    rfl

/-- The dispatcher sees the same six bytes. -/
theorem dispatchFrame_congr (hf : 6 ≤ f.length) (hg : 6 ≤ g.length) (h : f.take 6 = g.take 6) :
    dispatchFrame f = dispatchFrame g := by
  match f, g, hf, hg with
  | _ :: _ :: _ :: _ :: _ :: _ :: _, _ :: _ :: _ :: _ :: _ :: _ :: _, _, _ =>
    simp only [List.take_succ_cons, List.take_zero, List.cons.injEq, and_true] at h
    obtain ⟨rfl, rfl, rfl, rfl, rfl, rfl⟩ := h
    simp only [dispatchFrame_cons_six]

/-! ### The same request again -/

theorem sameImage.trans (hst : sameImage s t) (htu : sameImage t u) : sameImage s u := by
  obtain ⟨hcfg, hhr, hcoil⟩ := hst
  obtain ⟨hcfg', hhr', hcoil'⟩ := htu
  exact ⟨hcfg'.trans hcfg, hhr'.trans hhr, hcoil'.trans hcoil⟩

theorem State.echo_outcome_congr (h : t.reqBytes = s.reqBytes) : t.echo.outcome = s.echo.outcome := by
  rw [State.echo, State.echo, State.respond_outcome, State.respond_outcome, h]

/-- A coil set twice to one value is set once. -/
theorem execWrcoil_repeated {s' : State} (hideal : s.cfg.backend = .ideal) (hcoil : s.coil.length = s.cfg.numCoils)
    (hreq : s'.reqBytes = s.reqBytes) (h : execWrcoil addr value s = .next t) (himage : sameImage t s')
    (h' : execWrcoil addr value s' = .next u) : u.outcome = t.outcome ∧ sameImage t u := by
  obtain ⟨hcfg, hhr, hcoils⟩ := himage
  rw [(execWrcoil_frame h).1] at hcfg
  cases hvalue : decodeCoilValue value with
  | none =>
    rw [execWrcoil_of_badValue hvalue] at h h'
    cases h
    cases h'
    exact ⟨rfl, hcfg, hhr, hcoils⟩
  | some on =>
    obtain hbeyond | haddr := le_or_gt s.cfg.numCoils addr.toNat
    · rw [execWrcoil_of_badAddr hvalue hbeyond] at h
      rw [execWrcoil_of_badAddr hvalue (hcfg ▸ hbeyond)] at h'
      cases h
      cases h'
      exact ⟨rfl, hcfg, hhr, hcoils⟩
    · rw [execWrcoil_ideal hideal hcoil hvalue haddr] at h
      cases h
      have hlength : s'.coil.length = s'.cfg.numCoils := by
        rw [hcoils, hcfg, ← hcoil]
        exact List.length_set
      rw [execWrcoil_ideal (hcfg ▸ hideal) hlength hvalue (hcfg ▸ haddr)] at h'
      cases h'
      refine ⟨State.echo_outcome_congr hreq, hcfg, hhr, ?_⟩
      rw [State.echo_coil, State.echo_coil, hcoils]
      exact List.set_set _

/-- A register stored twice is stored once. -/
theorem execWrreg_repeated {s' : State} (hreq : s'.reqBytes = s.reqBytes) (h : execWrreg addr value s = .next t)
    (himage : sameImage t s') (h' : execWrreg addr value s' = .next u) : u.outcome = t.outcome ∧ sameImage t u := by
  obtain ⟨hcfg, hhr, hcoils⟩ := himage
  rw [(execWrreg_frame h).1] at hcfg
  obtain hbeyond | haddr := le_or_gt s.cfg.numRegisters addr.toNat
  · rw [execWrreg_of_badAddr hbeyond] at h
    rw [execWrreg_of_badAddr (hcfg ▸ hbeyond)] at h'
    cases h
    cases h'
    exact ⟨rfl, hcfg, hhr, hcoils⟩
  · rw [execWrreg_of_lt haddr] at h
    cases h
    rw [execWrreg_of_lt (hcfg ▸ haddr)] at h'
    cases h'
    have hstored : s'.hr = if s.cfg.wrRegStore then s.hr.set addr.toNat value else s.hr := hhr
    refine ⟨State.echo_outcome_congr hreq, hcfg, ?_, hcoils⟩
    rw [State.echo_hr, State.echo_hr, hstored, hcfg]
    split
    · exact List.set_set _
    · rfl

/-- With the ideal backend, a request run again from the image it left, on the same request buffer, answers the same and
changes nothing more: a write repeats itself, and no other kind changes the image it depends on. -/
theorem exec_repeated {s' : State} (hideal : s.cfg.backend = .ideal) (hcoil : s.coil.length = s.cfg.numCoils)
    (hreq : s'.reqBytes = s.reqBytes) (h : exec i s = .next t) (himage : sameImage t s') (h' : exec i s' = .next u) :
    u.outcome = t.outcome ∧ sameImage t u := by
  cases i with
  | rdcoil start count =>
    obtain ⟨hcfg, -, hcoil⟩ := (execRdcoil_frame h).1.trans himage
    exact ⟨execRdcoil_outcome_congr hcfg hcoil (hcfg ▸ hideal) h' h, himage.trans (execRdcoil_frame h').1⟩
  | rdhr start count =>
    obtain ⟨hcfg, hhr, -⟩ := (execRdhr_frame h).1.trans himage
    exact ⟨execRdhr_outcome_congr hcfg hhr h' h, himage.trans (execRdhr_frame h').1⟩
  | wrcoil addr value => exact execWrcoil_repeated hideal hcoil hreq h himage h'
  | wrreg addr value => exact execWrreg_repeated hreq h himage h'
  | illfc fc =>
    obtain ⟨hcfg, -, -⟩ := (execIllfc_frame h).1.trans himage
    refine ⟨?_, himage.trans (execIllfc_frame h').1⟩
    obtain rfl := execIllfc_cases h
    obtain rfl := execIllfc_cases h'
    simp only [State.outcome, State.raiseIllegalFunction_status, State.raiseIllegalFunction_rsp, hcfg]

/-! ### A coil switched and read back -/

/-- One coil packs into one byte, whose other seven bits are 0. -/
theorem packCoils_singleton (on : Bool) : packCoils [on] = [if on then 0x01#8 else 0x00#8] := by
  cases on <;> rfl

/-- Read Coils of one coil inside the file, its address counted from 1, with the ideal backend. -/
theorem execRdcoil_one (hideal : s.cfg.backend = .ideal) (haddr : addr.toNat < s.cfg.numCoils)
    (hbound : s.cfg.numCoils ≤ 65535) (hon : s.coil[addr.toNat]? = some on) :
    ∃ t, execRdcoil (addr + 1#16) 1#16 s = .next t ∧
      t.outcome = some (.respond (framed [s.cfg.slaveId, 0x01#8, 0x01#8, if on then 0x01#8 else 0x00#8])) := by
  have hstart : (addr + 1#16).toNat = addr.toNat + 1 := BitVec.toNat_add_of_lt (by simp; omega)
  have hdata : coilData s (addr + 1#16) 1#16 = [if on then 0x01#8 else 0x00#8] := by
    rw [coilData, hstart, s.coilAnswers_ideal hideal, ← packCoils_singleton on]
    simp [hon]
  refine ⟨_, execRdcoil_of_le (by decide) (by decide) (by omega) (by rw [hstart]; simpa using haddr), ?_⟩
  rw [State.respond_outcome, hdata]
  rfl

/-! ### The machine and the fold -/

/-- A transaction sees nothing of the events to come. -/
theorem transact_presents (hsix : f.take 6 = s.reqBytes.take 6) (h : transact f s = .next t) :
    transact f (s.presents f l) = .next (t.withLine l) := by
  obtain ⟨cause, hdecode, rfl⟩ | ⟨i, hdecode, hexec⟩ := transact_cases h
  · exact transact_of_rejected (s := s.presents f l) (decode_eq_error_iff.1 hdecode)
  · obtain ⟨hv, rfl⟩ := decode_eq_ok_iff.1 hdecode
    rw [transact_of_accepted (s := s.presents f l) hv]
    exact exec_presents (s := s.begin) hsix hexec

/-- A transaction consumes the frame, and leaves the constants and the line alone. -/
theorem transact_frame (h : transact f s = .next t) : t.req = none ∧ t.cfg = s.cfg ∧ t.line = s.line := by
  obtain ⟨cause, -, rfl⟩ | ⟨i, -, hexec⟩ := transact_cases h
  · exact ⟨rfl, rfl, rfl⟩
  · obtain ⟨_, hnext, hreq, -⟩ := handlersEndInExactlyOneOutcome i s.begin
    cases hnext.symm.trans hexec
    exact ⟨hreq, exec_frame (s := s.begin) hexec⟩

theorem runFrame_eq_transact (hfits : f.length ≤ 256) (s : State) :
    runFrame s f = transact f { s with req := some f } := if_pos (frameFits_iff.2 hfits)

theorem runFrames_cons {outs : List (Option TxOutcome)} {frames : List (List Byte)} (h : runFrame s f = .next t)
    (hrest : runFrames t frames = .next (u, outs)) : runFrames s (f :: frames) = .next (u, t.outcome :: outs) := by
  simp only [runFrames, h, hrest]

theorem run_succ_of_step (h : step s = .next t) (n : Nat) :
    Host.Core.run Sys2Proof.core (n + 1) s = Host.Core.run Sys2Proof.core n t := by
  have hcore : Sys2Proof.core.step s = .next t := h
  simp only [Host.Core.run, hcore]

/-- Two steps, delivery and transaction, do what the fold does with one frame, whatever is still to come. -/
theorem run_frame (hlegal : s.cfg.legal = true) (hreq : s.req = none) (hfits : f.length ≤ 256)
    (h : runFrame s f = .next t) (rest : List Event) (n : Nat) :
    Host.Core.run Sys2Proof.core (n + 2) (s.withLine (.frame f :: rest)) =
      Host.Core.run Sys2Proof.core n (t.withLine rest) := by
  rw [runFrame_eq_transact hfits] at h
  have hdeliver : step (s.withLine (.frame f :: rest)) = .next (s.presents f rest).begin :=
    (step_of_idle (s := s.withLine (.frame f :: rest)) hlegal hreq).trans ((takeEvent_frame rfl).trans (if_pos hfits))
  have htransact : step (s.presents f rest).begin = .next (t.withLine rest) :=
    calc step (s.presents f rest).begin
        = step (s.presents f rest) := step_begin rfl
      _ = transact f (s.presents f rest) := step_of_presented (s := s.presents f rest) hlegal rfl hfits
      _ = .next (t.withLine rest) := transact_presents (s := s.presents f s.line) rfl h
  rw [run_succ_of_step hdeliver, run_succ_of_step htransact]

theorem State.withLine_of_line_nil (h : s.line = []) : s.withLine [] = s := by
  rw [← h]
  rfl

theorem State.Ended.outcome_ne_none (h : t.Ended) : t.outcome ≠ none := by
  obtain ⟨cause, hout⟩ | hout | hout := h <;> simp [hout]

end Sys2Proof.Machine

namespace Sys2Proof

open Machine

/-- Settles O43: the echo is the first six bytes framed, and the frame is the same six bytes with the same CRC, high byte
first. -/
theorem echoExchangesCrcBytes : Obligations.EchoExchangesCrcBytes := by
  intro s t f addr value hmsb hreq hlen hdecode hstep hstatus
  obtain ⟨hrsp, -⟩ := echoCopiesSixRequestBytes s t f addr value hreq hdecode hstep hstatus
  obtain ⟨i, hi⟩ : ∃ i, decode s.cfg f = .ok i := hdecode.elim (⟨_, ·⟩) (⟨_, ·⟩)
  have hf := eq_withTrailer_of_validate_none (decode_eq_ok_iff.1 hi).1
  have hsix : (f.take 6).length = 6 := by rw [List.length_take, hlen]; rfl
  rw [hlen, withTrailer, if_pos hmsb] at hf
  rw [hrsp]
  generalize f.take 6 = covered at hf hsix
  subst hf
  have hfirst : byteAt (covered ++ [hi8 (crc16 covered), lo8 (crc16 covered)]) 6 = hi8 (crc16 covered) :=
    hsix ▸ byteAt_append_pair_first
  have hsecond : byteAt (covered ++ [hi8 (crc16 covered), lo8 (crc16 covered)]) 7 = lo8 (crc16 covered) := by
    conv_lhs => rw [show 7 = covered.length + 1 by omega]
    exact byteAt_append_pair_second
  rw [hfirst, hsecond, framed]

/-- Settles O48: the write leaves the coil set, and the read of the next address, counted from 1, answers that coil. -/
theorem switchedCoilReadsBackAtNextAddress : Obligations.SwitchedCoilReadsBackAtNextAddress := by
  intro s u addr on hlegal hideal hcoil haddr
  refine ⟨_, execWrcoil_ideal hideal hcoil (decodeCoilValue_eq_some_iff.2 rfl) haddr, ?_⟩
  rintro ⟨hcfg, -, hcoils⟩
  rw [State.echo_cfg] at hcfg
  have hon : u.coil[addr.toNat]? = some on := by
    rw [hcoils]
    exact List.getElem?_set_self (hcoil ▸ haddr)
  have hread := execRdcoil_one (hcfg ▸ hideal) (hcfg ▸ haddr) (hcfg ▸ numCoils_le_of_legal hlegal) hon
  rw [hcfg] at hread
  exact hread

/-- Settles O49: a rejected frame is rejected again, and an accepted one runs its request again. -/
theorem repeatedRequestSameOutcome : Obligations.RepeatedRequestSameOutcome := by
  intro s t f hideal hcoil hreq hstep
  obtain ⟨hlegal, hfits⟩ := legal_and_fits_of_step hreq hstep
  have htransact := transact_of_step hreq hstep
  obtain ⟨-, hcfg, -⟩ := transact_frame htransact
  obtain ⟨u, hu⟩ := transact_answers f (t.presents f t.line)
  refine ⟨u, (step_of_presented (s := t.presents f t.line) (hcfg ▸ hlegal) rfl hfits).trans hu, ?_⟩
  obtain ⟨cause, hdecode, rfl⟩ | ⟨i, hdecode, hexec⟩ := transact_cases htransact
  · have hrejected : validate s.cfg f = some cause := decode_eq_error_iff.1 hdecode
    cases (transact_of_rejected (s := (dropped s.begin cause).presents f s.line) hrejected).symm.trans hu
    exact ⟨rfl, rfl, rfl, rfl⟩
  · have hagain := exec_of_transact (s := t.presents f t.line) (hcfg ▸ hdecode) hu
    have hbytes : (t.presents f t.line).begin.reqBytes = s.begin.reqBytes := (State.reqBytes_of_req hreq).symm
    exact exec_repeated (s := s.begin) hideal hcoil hbytes hexec ⟨rfl, rfl, rfl⟩ hagain

/-- Settles O50: the next transaction begins in the same state. -/
theorem droppedFrameLeavesNoTrace : Obligations.DroppedFrameLeavesNoTrace := by
  intro s t f g hstep hstatus
  exact step_congr_of_begin rfl rfl (transact_noTrace (transact_of_step rfl hstep) hstatus g)

/-- Settles O51: both frames select the same request, which sees the six bytes they share. -/
theorem trailingBytesIgnored : Obligations.TrailingBytesIgnored := by
  intro s f g hf hg hvf hvg hsix
  cases hlegal : s.cfg.legal with
  | false => simp only [step, hlegal, Bool.false_eq_true, if_false]
  | true =>
    have hflen := validate_none_length hvf
    have hglen := validate_none_length hvg
    obtain ⟨t, ht⟩ := exec_answers (dispatchFrame g) (s.presents g s.line).begin
    have hline : t.withLine s.line = t := by
      rw [← show t.line = s.line from (exec_frame ht).2]
      rfl
    have hstep {r : List Byte} (hr : r.length ≤ 256) (hv : validate s.cfg r = none) :
        step (s.presents r s.line) = exec (dispatchFrame r) (s.presents r s.line).begin :=
      (step_of_presented (s := s.presents r s.line) hlegal rfl hr).trans (transact_of_accepted hv)
    calc step (s.presents f s.line)
        = exec (dispatchFrame g) (s.presents f s.line).begin := by
          rw [hstep hf hvf, dispatchFrame_congr (by omega) (by omega) hsix]
      _ = .next t := hline ▸ exec_presents hsix ht
      _ = step (s.presents g s.line) := by rw [hstep hg hvg, ht]

/-- Settles O52, by induction on the frames: two steps of the machine are one transaction of the fold, and the rest of the
line is the same statement from the state it leaves. -/
theorem runFoldsTransactions : Obligations.RunFoldsTransactions := by
  intro frames
  induction frames with
  | nil =>
    intro s hlegal hreq hline hfits
    refine ⟨s, [], rfl, rfl, by simp, ?_, by simp⟩
    exact congrArg _ (State.withLine_of_line_nil hline)
  | cons f frames ih =>
    intro s hlegal hreq hline hfits
    have hf : f.length ≤ 256 := hfits f List.mem_cons_self
    obtain ⟨t, ht⟩ := transact_answers f { s with req := some f }
    have hrun : runFrame s f = .next t := (runFrame_eq_transact hf s).trans ht
    obtain ⟨htreq, htcfg, htline⟩ := transact_frame ht
    obtain ⟨u, outs, hfold, hlength, houts, hmachine, hshows⟩ :=
      ih t (htcfg ▸ hlegal) htreq (htline.trans hline) fun g hg => hfits g (List.mem_cons_of_mem f hg)
    refine ⟨u, t.outcome :: outs, runFrames_cons hrun hfold, by simp [hlength],
      List.forall_mem_cons.2 ⟨(transact_ended ht).outcome_ne_none, houts⟩, ?machine, ?shows⟩
    case machine => exact (run_frame hlegal hreq hf hrun _ _).trans hmachine
    case shows =>
      intro j hj
      cases j with
      | zero => exact ⟨_, run_frame hlegal hreq hf hrun _ 0, rfl⟩
      | succ j =>
        obtain ⟨v, hv, hout⟩ := hshows j (by simpa using hj)
        exact ⟨v, (run_frame hlegal hreq hf hrun _ _).trans hv, hout⟩

end Sys2Proof
